-- ==== Sys2Proof/Word.lean ====
section
/-! DEFINITION. The words of the part: bytes on the pad link, the sensor line and the configuration
memory line, and the 16-bit words that the spec compares or sums modulo 65536. -/

namespace Sys2Proof

/-- One byte of a frame (R20), of a transaction (R12) or of the configuration image (R203). -/
abbrev Byte := BitVec 8

/-- A 16-bit word: a period sequence (R1, R177), the nomination digest (R186), the configuration
signature (R202), the STATUS flags (R39). -/
abbrev Word16 := BitVec 16

end Sys2Proof
end

