-- ==== Sys2Proof/Syntax.lean ====
section
/-! DEFINITION. The commands: one constructor for each row of spec/opcode_table.json. The table gives
no operands; the operands below are the model's choice (log 1). Each names what the step takes from
outside the part: a line and its level, a timer's unit, tower or peer, bytes read, a run of bits. -/

namespace Sys2Proof

/-- A compressor unit, 1 or 2 (R80). -/
inductive UnitId where
  | one
  | two
deriving DecidableEq, Repr

/-- A dryer tower (R103). -/
inductive Tower where
  | a
  | b
deriving DecidableEq, Repr

/-- The four valve feedback roles of R149. -/
inductive ValveFb where
  | whvOpen
  | whvClosed
  | injv
  | wdv
deriving DecidableEq, Repr

/-- The steps of the part, one for each row of spec/opcode_table.json. -/
inductive Instr where
  /-- RESET (R202): power-on reset, or the RESET pin low. -/
  | reset
  /-- RESET_END (R202): the reset ends. -/
  | resetEnd
  /-- CONFIG_HEADER_TAKEN (R203): the three header bytes of the image, in order. -/
  | configHeaderTaken (b0 b1 b2 : Byte)
  /-- CONFIG_IMAGE_READ (R205): the bytes of the image after its header, in order. -/
  | configImageRead (rest : List Byte)
  /-- LISTENING_TIMER_EXPIRY (R208). -/
  | listeningTimerExpiry
  /-- START_CLOCK_TICK (R193). -/
  | startClockTick
  /-- SENSE_LEVEL_CHANGE (R5): the pin of SENSE line `line` goes to the electrical level `high`. -/
  | senseLevelChange (line : Nat) (high : Bool)
  /-- STABILITY_TIMER_EXPIRY (R5) of line `line`. -/
  | stabilityTimerExpiry (line : Nat)
  /-- COUNT_PULSE (R9): an edge at the pin of COUNT line `line` to the electrical level `high`. -/
  | countPulse (line : Nat) (high : Bool)
  /-- PWM_PERIOD_START (R8). -/
  | pwmPeriodStart
  /-- SCAN_TIMER_EXPIRY (R14). -/
  | scanTimerExpiry
  /-- START_TRANSACTION_END (R15). -/
  | startTransactionEnd
  /-- CONVERSION_WAIT_EXPIRY (R15). -/
  | conversionWaitExpiry
  /-- READ_TRANSACTION_END (R16): the reply bytes clocked in. -/
  | readTransactionEnd (reply : List Byte)
  /-- LINK_TX_START (R22): the line has been recessive for `recessive` bit times. -/
  | linkTxStart (recessive : Nat)
  /-- ARBITRATION_LOSS (R23): dominant read at kind and sender bit `bit`, 0 the first. -/
  | arbitrationLoss (bit : Nat)
  /-- COLLISION (R24). -/
  | collision
  /-- FRAME_SENT (R31). -/
  | frameSent
  /-- FRAME_RECEIVE (R25): the frame's bytes, header, payload and CRC. -/
  | frameReceive (bytes : List Byte)
  /-- FRAME_BROKEN_OFF (R25). -/
  | frameBrokenOff
  /-- STATUS_TAKE (R45). -/
  | statusTake
  /-- SILENCE_TIMER_EXPIRY (R49) of the record of address `peer`. -/
  | silenceTimerExpiry (peer : Nat)
  /-- MARK (R178). -/
  | mark
  /-- NOMINATE (R183). -/
  | nominate
  /-- SETUP (R172). -/
  | setup
  /-- BALANCE (R174). -/
  | balance
  /-- RETIRE (R175). -/
  | retire
  /-- CLEAR_TRIP (R163). -/
  | clearTrip
  /-- CLEAR_UNIT (R90). -/
  | clearUnit
  /-- CLEAR_TOWER (R113). -/
  | clearTower
  /-- QUERY_ACCOUNT (R198). -/
  | queryAccount
  /-- QUERY_ENTRY (R198). -/
  | queryEntry
  /-- QUERY_PEER (R53). -/
  | queryPeer
  /-- QUERY_QUANTITY (R199). -/
  | queryQuantity
  /-- QUERY_LINES (R11). -/
  | queryLines
  /-- QUERY_STATION (R200). -/
  | queryStation
  /-- SHARE_CYCLE (R125). -/
  | shareCycle
  /-- EVENT_ADMISSION (R195). -/
  | eventAdmission
  /-- CLOSING_REPORT_ADMISSION (R182). -/
  | closingReportAdmission
  /-- METER_INTERVAL (R65). -/
  | meterInterval
  /-- ACCOUNT_INCREMENT_TAKE (R188). -/
  | accountIncrementTake
  /-- FUEL_INCREMENT_TAKE (R190). -/
  | fuelIncrementTake
  /-- DRYER_INCREMENT_TAKE (R106). -/
  | dryerIncrementTake
  /-- UNEXPECTED_MARK_CLEAR (R68). -/
  | unexpectedMarkClear
  /-- HISTORY_TIMER_EXPIRY (R74). -/
  | historyTimerExpiry
  /-- START_TIMEOUT_EXPIRY (R84) of unit `u`. -/
  | startTimeoutExpiry (u : UnitId)
  /-- RUN_FEEDBACK_ASSERTION (R84) of unit `u`. -/
  | runFeedbackAssertion (u : UnitId)
  /-- RUN_FEEDBACK_RELEASE (R87) of unit `u`. -/
  | runFeedbackRelease (u : UnitId)
  /-- FAULT_INPUT_ASSERTION (R87) of unit `u`. -/
  | faultInputAssertion (u : UnitId)
  /-- FAULT_INPUT_RELEASE (R91) of unit `u`. -/
  | faultInputRelease (u : UnitId)
  /-- RUN_CLOCK_EXPIRY (R85) of unit `u`. -/
  | runClockExpiry (u : UnitId)
  /-- MINIMUM_RUN_EXPIRY (R85) of unit `u`. -/
  | minimumRunExpiry (u : UnitId)
  /-- MINIMUM_STOP_EXPIRY (R89) of unit `u`. -/
  | minimumStopExpiry (u : UnitId)
  /-- COOLDOWN_EXPIRY (R88) of unit `u`. -/
  | cooldownExpiry (u : UnitId)
  /-- START_DWELL_EXPIRY (R98). -/
  | startDwellExpiry
  /-- STOP_DWELL_EXPIRY (R99). -/
  | stopDwellExpiry
  /-- TRAIN_DIRECTION_CHANGE (R95). -/
  | trainDirectionChange
  /-- HALF_HEAT_POINT (R110) of tower `t`. -/
  | halfHeatPoint (t : Tower)
  /-- HEAT_TIME_EXPIRY (R111) of tower `t`. -/
  | heatTimeExpiry (t : Tower)
  /-- COOL_TIME_EXPIRY (R112) of tower `t`. -/
  | coolTimeExpiry (t : Tower)
  /-- DEW_OUT_UPDATE (R114). -/
  | dewOutUpdate
  /-- DRYER_RUNNING_ENTRY (R120). -/
  | dryerRunningEntry
  /-- SHARE_DELIVERY (R150). -/
  | shareDelivery
  /-- COMPRESSOR_NOTICE (R94). -/
  | compressorNotice
  /-- VALVE_FEEDBACK_CHANGE (R149) of feedback `fb`. -/
  | valveFeedbackChange (fb : ValveFb)
  /-- ESTOP_IN_ASSERTION (R161). -/
  | estopInAssertion
  /-- ESTOP_IN_RELEASE (R161). -/
  | estopInRelease
  /-- CLEAR_IN_ASSERTION (R163). -/
  | clearInAssertion
  /-- LINEUP_TIMER_EXPIRY (R155). -/
  | lineupTimerExpiry
  /-- HOLD_TIMER_EXPIRY (R158). -/
  | holdTimerExpiry
  /-- RAMP_STEP (R164). -/
  | rampStep
  /-- CLOSE_TIMER_EXPIRY (R160). -/
  | closeTimerExpiry
  /-- SETTLE_TIMER_EXPIRY (R151). -/
  | settleTimerExpiry
  /-- DIRECTION_RUNNING_ENTRY (R152). -/
  | directionRunningEntry
  /-- PERIOD_TIMER_EXPIRY (R179). -/
  | periodTimerExpiry
  /-- GRACE_TIMER_EXPIRY (R179). -/
  | graceTimerExpiry
  /-- HEADER_LENGTH_ABOVE_24 (R25): the two header bytes read. -/
  | headerLengthAbove24 (h0 h1 : Byte)
  /-- START_BIT_AFTER_IDLE (R22). -/
  | startBitAfterIdle
deriving DecidableEq, Repr

end Sys2Proof
end

