-- ==== Sys2Proof/Decode.lean ====
section
/-! DEFINITION. spec/opcode_table.json gives no row any bits ("n_rows_with_fixed": 0, "n_rows_with_fields":
0 in spec/98_reader.md): no word spells a command, and commands reach the part as themselves (log 6). -/

namespace Sys2Proof

/-- The command that a word spells by the table's bits: none, since no row gives bits. -/
def decodeTableWord (_nbits _w : Nat) : Option Instr := none

end Sys2Proof
end

