-- ==== Sys2Proof/Config.lean ====
section
/-! DEFINITION. What is fixed while the part runs: the configuration image (R204) with the code sets of
its fields, the fixed sizes and periods of the spec, and the model's one free value. -/

namespace Sys2Proof

/-- FREE VALUE (log 11, DESIGN CHOICE): what a 64-bit signed accumulator holds after a sum whose exact
value lies outside 64 bits. R1 gives the width and no rule gives the result. -/
opaque Config.overflow64 : Int → BitVec 64

/-- The transmit queue holds up to 8 frames (R31). -/
def Config.queuePlaces : Nat := 8
/-- A REPORT or EVENT is admitted when the queue holds 6 frames or fewer (R33). -/
def Config.feederLimit : Nat := 6
/-- A frame is discarded at its 16th collision (R24). -/
def Config.collisionLimit : Nat := 16
/-- Two receive buffers (R28). -/
def Config.bufferCount : Nat := 2
/-- The event queue holds up to 10 records (R193). -/
def Config.eventPlaces : Nat := 10
/-- The start clock holds at this value (R193). -/
def Config.clockMax : Nat := 4294967295
/-- The scan timer's period, ms (R14). -/
def Config.scanPeriod : Nat := 500
/-- The meter interval, ms (R63). -/
def Config.meterPeriod : Nat := 1000
/-- The run clock's period, ms (R85). -/
def Config.runClockPeriod : Nat := 1000
/-- The ramp timer's period, ms (R164). -/
def Config.rampPeriod : Nat := 250
/-- The largest count of a COUNT line (R9). -/
def Config.countMax : Nat := 4095
/-- The pressure history ring holds up to 16 samples (R63). -/
def Config.ringPlaces : Nat := 16
/-- The idle line: recessive for 11 bit times (R22). -/
def Config.idleBits : Nat := 11

/-- Line roles (R2). -/
inductive Role where
  | meterPulse
  | fuelPulse
  | demandOut
  | whvCmd
  | injvCmd
  | wdvCmd
  | tripOut
  | u1RunCmd
  | u2RunCmd
  | twrACmd
  | twrBCmd
  | heaterCmd
  | whvOpenFb
  | whvClosedFb
  | injvFb
  | wdvFb
  | estopIn
  | clearIn
  | u1RunFb
  | u2RunFb
  | u1FaultIn
  | u2FaultIn
  | spare
deriving DecidableEq, Repr

/-- Line modes (R2, R3). -/
inductive LineMode where
  | sense
  | count
  | pwm
  | odDrive
  | ppDrive
deriving DecidableEq, Repr

/-- Line polarities (R3). -/
inductive Polarity where
  | activeHigh
  | activeLow
deriving DecidableEq, Repr

/-- One line record of the image's field line table (R204). -/
structure LineCfg where
  role : Role
  mode : LineMode
  polarity : Polarity
deriving DecidableEq, Repr

/-- The five quantities, in slot order (R13). -/
inductive Qty where
  | wellP
  | wellT
  | lineP
  | dewOut
  | regenT
deriving DecidableEq, Repr

/-- One thing for each of the five quantities (R13). -/
structure PerQty (α : Type) where
  wellP : α
  wellT : α
  lineP : α
  dewOut : α
  regenT : α
deriving DecidableEq, Repr

/-- The configured fields of one scan slot (R13). -/
structure SlotCfg where
  fitted : Bool
  select : Nat
  startRequest : List Byte
  conversionWait : Nat
  readRequest : List Byte
  replyLength : Nat
  statusMask : Byte
  statusMatch : Byte
  gain : Int
  offset : Int
  fallback : Int
deriving DecidableEq, Repr

/-- A curve: its points as (x, y), x strictly ascending in a checked image (R61). -/
structure Curve where
  points : List (Nat × Nat)
deriving DecidableEq, Repr

/-- Where a unit's trip leads (R81, R87). -/
inductive FaultMode where
  | latched
  | report
deriving DecidableEq, Repr

/-- The Station record of the image (R204). -/
structure StationCfg where
  shareCycle : Nat
  deadband : Nat
  trimShift : Nat
  fmin : Nat
  winj : Nat
  wwd : Nat
  pmin : Nat
  pmax : Nat
  baseInventory : Nat
  historyInterval : Nat
  riseLimit : Nat
  fallLimit : Nat
  lpp : Nat
  fuelPerPulse : Nat
  alpha : Nat
  deltaMax : Nat
  rfull : Nat
  holdTime : Nat
  settleTime : Nat
  lineupTimeout : Nat
  closeTimeout : Nat
deriving DecidableEq, Repr

/-- The five curve records of the image (R61). -/
structure CurvesCfg where
  wd : Curve
  inj : Curve
  unit : Curve
  zc : Curve
  water : Curve
deriving DecidableEq, Repr

/-- The Compressor record of the image (R81). -/
structure CompressorCfg where
  startTimeout : Nat
  cooldown : Nat
  minRun : Nat
  minStop : Nat
  faultMode : FaultMode
  hours1 : Nat
  hours2 : Nat
  startThreshold : Nat
  stopThreshold : Nat
  startDwell : Nat
  stopDwell : Nat
deriving DecidableEq, Repr

/-- The Dryer record of the image (R104). -/
structure DryerCfg where
  lmax : Nat
  dmax : Nat
  heatTime : Nat
  coolTime : Nat
  regenTarget : Nat
  dewLimit : Int
  dewHysteresis : Nat
deriving DecidableEq, Repr

/-- The configuration image (R204): its nine records. -/
structure Image where
  station : StationCfg
  ownAddress : Nat
  terminals : List Nat
  curves : CurvesCfg
  compressor : CompressorCfg
  dryer : DryerCfg
  periodMinutes : Nat
  grace : Nat
  debounce : Nat
  lines : List LineCfg
  clockDivide : Nat
  slots : PerQty SlotCfg
deriving DecidableEq, Repr

def SlotCfg.blank : SlotCfg :=
  { fitted := false, select := 0, startRequest := [], conversionWait := 0, readRequest := [],
    replyLength := 0, statusMask := 0, statusMatch := 0, gain := 0, offset := 0, fallback := 0 }

/-- The value of `image` while no image is in use (log 9, DESIGN CHOICE); no rule reads it. -/
def Image.blank : Image :=
  { station :=
      { shareCycle := 0, deadband := 0, trimShift := 0, fmin := 0, winj := 0, wwd := 0, pmin := 0,
        pmax := 0, baseInventory := 0, historyInterval := 0, riseLimit := 0, fallLimit := 0, lpp := 0,
        fuelPerPulse := 0, alpha := 0, deltaMax := 0, rfull := 0, holdTime := 0, settleTime := 0,
        lineupTimeout := 0, closeTimeout := 0 }
    ownAddress := 0, terminals := []
    curves := { wd := ⟨[]⟩, inj := ⟨[]⟩, unit := ⟨[]⟩, zc := ⟨[]⟩, water := ⟨[]⟩ }
    compressor :=
      { startTimeout := 0, cooldown := 0, minRun := 0, minStop := 0, faultMode := .latched, hours1 := 0,
        hours2 := 0, startThreshold := 0, stopThreshold := 0, startDwell := 0, stopDwell := 0 }
    dryer :=
      { lmax := 0, dmax := 0, heatTime := 0, coolTime := 0, regenTarget := 0, dewLimit := 0,
        dewHysteresis := 0 }
    periodMinutes := 0, grace := 0, debounce := 0, lines := [], clockDivide := 0
    slots := { wellP := .blank, wellT := .blank, lineP := .blank, dewOut := .blank, regenT := .blank } }

end Sys2Proof
end

