-- ==== Sys2Proof/Machine/Bits.lean ====
section
/-! DEFINITION. Numbers and bytes: 64-bit accumulators (R1), byte order and saturation of fields (R37),
the two CRCs (R21, R186, R204) and the evaluation of a curve (R62). -/

namespace Sys2Proof.Machine

/-- A 64-bit signed accumulator takes the exact value `x` (R1). Where `x` lies outside 64 bits the spec
gives no result: it is the free value of `Config.overflow64` (log 11). -/
def acc64 (x : Int) : Int :=
  if -9223372036854775808 ≤ x ∧ x ≤ 9223372036854775807 then x else (Config.overflow64 x).toInt

/-- An accumulator `x` with `y` added; adding 0 changes nothing (R1, R188). -/
def accAdd (x y : Int) : Int := if y = 0 then x else acc64 (x + y)

/-- The unsigned number whose bytes are `bs`, most significant first (R37, R204). -/
def beNat (bs : List Byte) : Nat := bs.foldl (fun acc b => acc * 256 + b.toNat) 0

/-- The two's complement number of `bits` bits whose unsigned form is `n` (R37). -/
def toSigned (bits n : Nat) : Int := if n < 2 ^ (bits - 1) then (n : Int) else (n : Int) - 2 ^ bits

/-- The signed number whose bytes are `bs`, most significant first (R37, R204). -/
def beInt (bs : List Byte) : Int := toSigned (8 * bs.length) (beNat bs)

/-- The 16-bit word whose bytes are `bs`. -/
def beWord (bs : List Byte) : Word16 := BitVec.ofNat 16 (beNat bs)

/-- `x` saturated at the limits of an unsigned field of `bits` bits (R37). -/
def satU (bits : Nat) (x : Int) : Nat := (max 0 (min (2 ^ bits - 1) x)).toNat

/-- `x` saturated at the limits of a signed field of `bits` bits (R37). -/
def satS (bits : Nat) (x : Int) : Int := max (-(2 ^ (bits - 1))) (min (2 ^ (bits - 1) - 1) x)

/-- The lowest `k` bytes of `n`, most significant first (R37). -/
def bytesOf : Nat → Nat → List Byte
  | 0, _ => []
  | k + 1, n => BitVec.ofNat 8 (n / 256 ^ k) :: bytesOf k n

/-- An unsigned field of `k` bytes that carries `x` saturated (R37). -/
def putU (k : Nat) (x : Int) : List Byte := bytesOf k (satU (8 * k) x)

/-- A signed field of `k` bytes that carries `x` saturated, two's complement (R37). -/
def putS (k : Nat) (x : Int) : List Byte := bytesOf k ((satS (8 * k) x) % (2 ^ (8 * k))).toNat

/-- A 16-bit word as two bytes, high byte first. -/
def putWord (w : Word16) : List Byte := bytesOf 2 w.toNat

/-- `k` shift steps of the CRC-8 with generator x⁸ + x² + x + 1 (R21). -/
def crc8Steps : Nat → Byte → Byte
  | 0, c => c
  | k + 1, c => crc8Steps k (if c.msb then (c <<< 1) ^^^ 0x07#8 else c <<< 1)

/-- The CRC-8 of a frame's header and payload bytes, initial value 0 (R21). -/
def crc8 (bs : List Byte) : Byte := bs.foldl (fun c b => crc8Steps 8 (c ^^^ b)) 0#8

/-- `k` shift steps of the CRC-16 with generator x¹⁶ + x¹² + x⁵ + 1 (R186, R204). -/
def crc16Steps : Nat → Word16 → Word16
  | 0, c => c
  | k + 1, c => crc16Steps k (if c.msb then (c <<< 1) ^^^ 0x1021#16 else c <<< 1)

/-- The CRC-16 over bytes, initial value 0xFFFF, no final inversion (R186, R204). -/
def crc16 (bs : List Byte) : Word16 :=
  bs.foldl (fun c b => crc16Steps 8 (c ^^^ BitVec.ofNat 16 (b.toNat * 256))) 0xFFFF#16

/-- The last two cases of R62, from the point `(x0, y0)` at or below `x` on. -/
def curveFrom (x : Int) (x0 y0 : Nat) : List (Nat × Nat) → Nat
  | [] => y0
  | (x1, y1) :: rest =>
    if x < (x1 : Int) then
      ((y0 : Int) + (((y1 : Int) - y0) * (x - x0)).tdiv ((x1 : Int) - x0)).toNat
    else curveFrom x x1 y1 rest

/-- A curve evaluated at `x` (R62): held at its ends, truncated toward zero between two points. -/
def curveAt (c : Curve) (x : Int) : Nat :=
  match c.points with
  | [] => 0
  | (x0, y0) :: rest => if x ≤ (x0 : Int) then y0 else curveFrom x x0 y0 rest

/-- The distance of a sequence from the OPEN sequence, modulo 65536 (R177). -/
def seqDistance (s openSeq : Word16) : Nat := (s - openSeq).toNat

/-- `n` held at `hi`. -/
def heldAt (hi n : Nat) : Nat := min hi n

end Sys2Proof.Machine
end

