-- ==== Sys2Proof/Machine/State.lean ====
section
/-! DEFINITION. The state of the part: the record of each of its twelve blocks (00_scope.md, "Blocks"),
what one block has delivered and another has not yet taken, and the queue of commands that wait. -/

namespace Sys2Proof.Machine

/-- A timer: stopped, or running with the duration it was started with, in milliseconds. Its expiry is
a command; elapsed time is not counted (log 4). -/
inductive Timer where
  | stopped
  | running (ms : Nat)
deriving DecidableEq, Repr

/-! ### Start-up Controller (R202) -/

/-- The station states of R202. -/
inductive Station where
  | loading
  | configFault
  | listening
  | running
  | duplicate
deriving DecidableEq, Repr

/-- How far the image read of R203 has come: not started, header awaited, or the rest of the image
awaited after the three header bytes; `ended` once CSEL has been released. -/
inductive LoadPhase where
  | notStarted
  | header
  | body (b0 b1 b2 : Byte)
  | ended
deriving DecidableEq, Repr

/-- The Start-up Controller. `csel` is the configuration memory's select, `memoryOut` the bytes clocked out
to the memory in the transaction under way (R203). -/
structure StartUp where
  station : Station
  held : Bool
  load : LoadPhase
  csel : Bool
  memoryOut : List Byte
  inUse : Bool
  image : Image
  signature : Word16
  listening : Timer
deriving DecidableEq, Repr

/-! ### Field Line Unit (R3 to R9) -/

/-- One field line record. `pinHigh` is the electrical level seen at the pin; the raw logical level is
read from it through the line's polarity (R3). -/
structure LineRec where
  pinHigh : Bool
  debounced : Bool
  stability : Timer
  count : Nat
  overRange : Bool
deriving DecidableEq, Repr

/-- The requests of the nine on-off drive roles, true for asserted (R7). -/
structure DriveReqs where
  whv : Bool
  injv : Bool
  wdv : Bool
  tripOut : Bool
  u1Run : Bool
  u2Run : Bool
  twrA : Bool
  twrB : Bool
  heater : Bool
deriving DecidableEq, Repr

structure FieldLines where
  recs : List LineRec
  requests : DriveReqs
  appliedDuty : Nat
deriving DecidableEq, Repr

/-! ### Sensor Scanner (R12 to R19) -/

/-- The states of a quantity record (R17). -/
inductive QState where
  | none
  | good
  | held
  | failed
deriving DecidableEq, Repr

structure QtyRec where
  value : Int
  state : QState
  fails : Nat
  lastGood : Option Int
deriving DecidableEq, Repr

/-- A sensor line transaction (R12): the select line asserted, the bytes clocked out, and how long it
lasts in microseconds. -/
structure Transaction where
  select : Nat
  bytesOut : List Byte
  micros : Nat
deriving DecidableEq, Repr

/-- Where the scan pass stands in the slot it works on (R15). -/
inductive ScanPhase where
  | starting (t : Transaction)
  | waiting (ms : Nat)
  | reading (t : Transaction)
deriving DecidableEq, Repr

/-- A scan pass in flight (R14); `skipped` once an expiry has been skipped since it started. -/
structure Pass where
  slot : Qty
  phase : ScanPhase
  skipped : Bool
deriving DecidableEq, Repr

structure Scanner where
  timer : Timer
  pass : Option Pass
  quantities : PerQty QtyRec
deriving DecidableEq, Repr

/-! ### Link Controller (R20 to R36) -/

/-- The fields of a STATUS (R39). -/
structure StatusFields where
  dirCode : Byte
  flags : Word16
  aInj : Nat
  aWd : Nat
  flow : Int
  p : Nat
  openSeq : Word16
  digest : Word16
  signature : Word16
deriving DecidableEq, Repr

/-- The targets of a CLEAR (R43). -/
inductive ClearTarget where
  | trip
  | unit (u : UnitId)
  | tower (t : Tower)
deriving DecidableEq, Repr

/-- The roles of the period tables (R176). -/
inductive TableRole where
  | openRole
  | pendingRole
  | closedRole
deriving DecidableEq, Repr

/-- A QUERY with its argument (R40). -/
inductive Query where
  | account (code : Nat)
  | entry (role : TableRole) (code : Nat)
  | peer (address : Nat)
  | quantity (id : Nat)
  | lines
  | station
deriving DecidableEq, Repr

/-- The payload of an accepted frame as its named fields (R40). -/
inductive RxBody where
  | mark (seq : Word16) (elapsed : Nat)
  | nominate (seq : Word16) (code : Nat) (rate : Int)
  | setup (code injRight wdRight : Nat)
  | balance (code : Nat) (amount : Int)
  | retire (code : Nat)
  | clear (target : ClearTarget)
  | status (fields : StatusFields)
  | query (q : Query)
deriving DecidableEq, Repr

/-- The consumers of accepted frames; the three CLEAR consumers are different (R27, R29). -/
inductive Consumer where
  | accountStore
  | directionController
  | compressorDuty
  | dryerUnit
  | peerRoster
  | queryResponder
deriving DecidableEq, Repr

/-- An accepted frame in a receive buffer; `dup` is the duplicate mark of R27. -/
structure RxFrame where
  sender : Nat
  dup : Bool
  body : RxBody
deriving DecidableEq, Repr

/-- The kinds of frame the part sends (R31). -/
inductive TxKind where
  | status
  | report
  | event
deriving DecidableEq, Repr

/-- A frame of the transmit queue (R31). -/
structure TxFrame where
  kind : TxKind
  payload : List Byte
  collisions : Nat
  backoff : Bool
deriving DecidableEq, Repr

/-- The receiver: waiting for an idle line and a start bit after it, or taking a frame (R25, R36). -/
inductive RxState where
  | waiting
  | taking
deriving DecidableEq, Repr

/-- The two feeders that wait; the admission mark names one of them (R34). -/
inductive Feeder where
  | eventQueue
  | cursor
deriving DecidableEq, Repr

/-- The Link Controller. `buffers` holds the frames of the two receive buffers in arrival order, `hold`
the payload of a held STATUS, `sending` the bytes of the head frame while it is in transmission. -/
structure Link where
  rx : RxState
  buffers : List RxFrame
  overrun : Bool
  queue : List TxFrame
  hold : Option (List Byte)
  sending : Option (List Byte)
  mark : Feeder
deriving DecidableEq, Repr

/-! ### Peer Roster (R44) -/

inductive PeerState where
  | absent
  | fresh
  | stale
deriving DecidableEq, Repr

structure PeerRec where
  state : PeerState
  last : StatusFields
  silence : Timer
  disagree : Bool
deriving DecidableEq, Repr

/-! ### Meter Unit (R63) -/

/-- The two directions of flow. -/
inductive Flow where
  | inj
  | wd
deriving DecidableEq, Repr

structure Meter where
  residue : Nat
  net : Int
  flow : Int
  lastSign : Flow
  unexpected : Bool
  fuelTotal : Int
  injCap : Bool
  wdCap : Bool
  ring : List Int
  interval : Timer
  history : Timer
deriving DecidableEq, Repr

/-! ### Compressor Duty Unit (R80) -/

inductive UnitState where
  | off
  | starting
  | running
  | cooldown
  | lockout
deriving DecidableEq, Repr

structure UnitRec where
  state : UnitState
  fails : Nat
  runSeconds : Nat
  stateTimer : Timer
  runClock : Timer
  minRun : Timer
  minRunMark : Bool
  minStop : Timer
  minStopMark : Bool
  lag : Bool
  passedOver : Bool
deriving DecidableEq, Repr

/-- The direction states of R146. -/
inductive DirState where
  | idle
  | lineupInj
  | lineupWd
  | inject
  | withdraw
  | rundown
  | tripped
deriving DecidableEq, Repr

/-- The Compressor Duty Unit; `trainDir` is the direction state as the last delivery of R95 left it. -/
structure Compressor where
  u1 : UnitRec
  u2 : UnitRec
  lineup : Bool
  startDwell : Timer
  startMark : Bool
  stopDwell : Timer
  stopMark : Bool
  trainDir : DirState
deriving DecidableEq, Repr

/-! ### Dryer Unit (R103) -/

inductive TowerState where
  | onLine
  | hold
  | heating
  | cooling
  | standby
  | faulted
deriving DecidableEq, Repr

structure TowerRec where
  state : TowerState
  load : Int
  residue : Nat
  regen : Timer
  halfMark : Bool
deriving DecidableEq, Repr

structure Dryer where
  a : TowerRec
  b : TowerRec
  heater : Option Tower
  above : Nat
  below : Nat
  offSpec : Bool
  limit : Bool
deriving DecidableEq, Repr

/-! ### Share Engine (R123) -/

/-- The direction d of the site target (R127). -/
inductive Dir where
  | inj
  | wd
  | hold
deriving DecidableEq, Repr

structure Share where
  q : Int
  lastP : Nat
  lastAInj : Nat
  lastAWd : Nat
  timer : Timer
deriving DecidableEq, Repr

/-! ### Direction Controller (R146) -/

inductive Phase where
  | ramp
  | close
deriving DecidableEq, Repr

inductive TripCause where
  | estop
  | valve
  | lineup
deriving DecidableEq, Repr

structure Direction where
  state : DirState
  remembered : Flow
  phase : Phase
  r : Nat
  heldP : Nat
  heldD : Dir
  heldCrun : Nat
  lineupFails : Nat
  lastFlow : Option Flow
  settle : Timer
  settleMark : Bool
  cause : Option TripCause
  lineupTimer : Timer
  holdTimer : Timer
  closeTimer : Timer
  rampTimer : Timer
  duty : Nat
deriving DecidableEq, Repr

/-! ### Account Store (R169 to R187) -/

/-- An account record; a free record is blank (R169). `link` is the chain link of R170. -/
structure AccRec where
  present : Bool
  code : Nat
  injRight : Nat
  wdRight : Nat
  opening : Int
  net : Int
  fuel : Int
  offSpec : Int
  link : Option Nat
deriving DecidableEq, Repr

/-- An entry of a period table (R176). -/
structure Entry where
  nomination : Option Int
  curtailed : Bool
  injected : Int
  withdrawn : Int
  fuel : Int
  offSpec : Int
deriving DecidableEq, Repr

/-- The three period tables (R176). -/
inductive TableId where
  | p0
  | p1
  | p2
deriving DecidableEq, Repr

inductive Sync where
  | unsynced
  | marked
  | ownClock
deriving DecidableEq, Repr

structure Accounts where
  recs : List AccRec
  buckets : List (Option Nat)
  stack : List Nat
  p0 : List Entry
  p1 : List Entry
  p2 : List Entry
  openT : TableId
  pendingT : TableId
  closedT : TableId
  reporting : Bool
  sync : Sync
  openSeq : Word16
  closedSeq : Word16
  period : Timer
  grace : Timer
  cursor : Option Nat
  metered : List Int
  fuel : List Nat
deriving DecidableEq, Repr

/-! ### Event Queue (R193) -/

/-- The event kinds (R43). -/
inductive EventKind where
  | linkTxFail
  | dupAddress
  | peerNew
  | peerStale
  | peerReturn
  | peerLost
  | configMismatch
  | periodDisagree
  | quantityFailed
  | quantityRestored
  | scanOverrun
  | meterOverrange
  | meterUnexpected
  | pressureRate
  | unitStartFail
  | unitTrip
  | unitLockout
  | towerSwitch
  | towerFault
  | offSpecOn
  | offSpecOff
  | lineupFail
  | directionChange
  | trip
  | tripCleared
  | clearRefused
  | nomRefused
  | nomCurtailed
  | acctFull
  | balanceRefused
  | retireRefused
  | periodRotate
  | periodOwnClock
  | periodSkip
  | closeLost
  | queryDropped
deriving DecidableEq, Repr

structure EventRec where
  kind : EventKind
  detail : Nat
  seconds : Nat
deriving DecidableEq, Repr

structure Events where
  queue : List EventRec
  lost : Bool
  clock : Nat
deriving DecidableEq, Repr

/-! ### Deliveries that wait for their taker (log 5) -/

/-- A compressor notice (R94): a unit entered RUNNING or left it, and the C_run after the change. -/
structure Notice where
  entered : Bool
  cRun : Nat
deriving DecidableEq, Repr

/-- What one block has delivered and another has not yet taken, each list oldest first. -/
structure Inbox where
  lineChanges : List (Role × Bool)
  deliveries : List (Nat × Dir)
  notices : List Notice
  dirChanges : List (DirState × Flow)
  meterEntries : List DirState
  dryerIncrements : List Int
  dewUpdates : List (QState × Int)
  runningToDirection : Bool
  runningToDryer : Bool
deriving DecidableEq, Repr

/-- The whole part, and the commands that wait for it. -/
structure State where
  startup : StartUp
  lines : FieldLines
  scanner : Scanner
  link : Link
  roster : List PeerRec
  meter : Meter
  compressor : Compressor
  dryer : Dryer
  share : Share
  direction : Direction
  accounts : Accounts
  events : Events
  inbox : Inbox
  pending : List Instr
deriving DecidableEq, Repr

/-- Why the machine stops with a fault. The spec names no such stop of its own. -/
inductive Fault where
  /-- Raised by SENSE_LEVEL_CHANGE, STABILITY_TIMER_EXPIRY and COUNT_PULSE for a line outside 1 to 24:
  no such field line exists (R2). Safe (log 23). -/
  | noSuchLine (line : Nat)
  /-- Raised by SILENCE_TIMER_EXPIRY for an address outside 1 to 32: no such record exists (R44).
  Safe (log 23). -/
  | noSuchPeer (peer : Nat)
deriving DecidableEq, Repr

/-- Why the machine refuses a command. -/
inductive Refusal where
  /-- Raised by exec's arm for a command that has no meaning yet. Safe. No arm does so. -/
  | notModelled (mnemonic : String)
deriving DecidableEq, Repr

/-! ### Values after reset -/

def LineRec.reset : LineRec :=
  { pinHigh := false, debounced := false, stability := .stopped, count := 0, overRange := false }

/-- R7's table: tower A is ON_LINE, so its command is the one asserted request. -/
def DriveReqs.reset : DriveReqs :=
  { whv := false, injv := false, wdv := false, tripOut := false, u1Run := false, u2Run := false,
    twrA := true, twrB := false, heater := false }

def FieldLines.reset : FieldLines :=
  { recs := List.replicate 24 LineRec.reset, requests := DriveReqs.reset, appliedDuty := 0 }

/-- R18: state NONE; the value is the model's (log 10). -/
def QtyRec.reset : QtyRec := { value := 0, state := .none, fails := 0, lastGood := none }

def Scanner.reset : Scanner :=
  { timer := .stopped, pass := none,
    quantities := { wellP := .reset, wellT := .reset, lineP := .reset, dewOut := .reset, regenT := .reset } }

/-- R28, R31, R32, R34, R36. -/
def Link.reset : Link :=
  { rx := .waiting, buffers := [], overrun := false, queue := [], hold := none, sending := none,
    mark := .cursor }

def StatusFields.zero : StatusFields :=
  { dirCode := 0, flags := 0, aInj := 0, aWd := 0, flow := 0, p := 0, openSeq := 0, digest := 0,
    signature := 0 }

/-- R44. -/
def PeerRec.reset : PeerRec :=
  { state := .absent, last := .zero, silence := .stopped, disagree := false }

/-- R63. -/
def Meter.reset : Meter :=
  { residue := 0, net := 0, flow := 0, lastSign := .inj, unexpected := false, fuelTotal := 0,
    injCap := false, wdCap := false, ring := [], interval := .stopped, history := .stopped }

/-- R80: OFF, the minimum stop already met. -/
def UnitRec.reset : UnitRec :=
  { state := .off, fails := 0, runSeconds := 0, stateTimer := .stopped, runClock := .stopped,
    minRun := .stopped, minRunMark := false, minStop := .stopped, minStopMark := true, lag := false,
    passedOver := false }

/-- R80. -/
def Compressor.reset : Compressor :=
  { u1 := .reset, u2 := .reset, lineup := false, startDwell := .stopped, startMark := false,
    stopDwell := .stopped, stopMark := false, trainDir := .idle }

/-- R103: A ON_LINE, B HOLD, the off-spec flag set. -/
def Dryer.reset : Dryer :=
  { a := { state := .onLine, load := 0, residue := 0, regen := .stopped, halfMark := false }
    b := { state := .hold, load := 0, residue := 0, regen := .stopped, halfMark := false }
    heater := none, above := 0, below := 0, offSpec := true, limit := false }

/-- R123. -/
def Share.reset : Share := { q := 0, lastP := 0, lastAInj := 0, lastAWd := 0, timer := .stopped }

/-- R146. -/
def Direction.reset : Direction :=
  { state := .idle, remembered := .inj, phase := .ramp, r := 0, heldP := 0, heldD := .hold,
    heldCrun := 0, lineupFails := 0, lastFlow := none, settle := .stopped, settleMark := false,
    cause := none, lineupTimer := .stopped, holdTimer := .stopped, closeTimer := .stopped,
    rampTimer := .stopped, duty := 0 }

/-- A free record (R169). -/
def AccRec.blank : AccRec :=
  { present := false, code := 0, injRight := 0, wdRight := 0, opening := 0, net := 0, fuel := 0,
    offSpec := 0, link := none }

def Entry.blank : Entry :=
  { nomination := none, curtailed := false, injected := 0, withdrawn := 0, fuel := 0, offSpec := 0 }

/-- A cleared table of 49 entries (R176). -/
def Entry.blankTable : List Entry := List.replicate 49 Entry.blank

/-- R169, R170, R171, R176, R177, R182, R187. -/
def Accounts.reset : Accounts :=
  { recs := { AccRec.blank with present := true } :: List.replicate 48 AccRec.blank
    buckets := List.replicate 16 none
    stack := (List.range 48).map (· + 1)
    p0 := Entry.blankTable, p1 := Entry.blankTable, p2 := Entry.blankTable
    openT := .p0, pendingT := .p1, closedT := .p2
    reporting := false, sync := .unsynced, openSeq := 0, closedSeq := 0
    period := .stopped, grace := .stopped, cursor := none, metered := [], fuel := [] }

/-- R193. -/
def Events.reset : Events := { queue := [], lost := false, clock := 0 }

def Inbox.empty : Inbox :=
  { lineChanges := [], deliveries := [], notices := [], dirChanges := [], meterEntries := [],
    dryerIncrements := [], dewUpdates := [], runningToDirection := false, runningToDryer := false }

/-- R202: no image in use, signature 0, listening timer stopped; the reset is still held (log 7). -/
def StartUp.reset : StartUp :=
  { station := .loading, held := true, load := .notStarted, csel := false, memoryOut := [],
    inUse := false, image := Image.blank, signature := 0, listening := .stopped }

/-- The part in reset (R202): every block at its reset values, no command waiting. -/
def State.reset : State :=
  { startup := .reset, lines := .reset, scanner := .reset, link := .reset
    roster := List.replicate 32 PeerRec.reset, meter := .reset, compressor := .reset, dryer := .reset
    share := .reset, direction := .reset, accounts := .reset, events := .reset, inbox := .empty
    pending := [] }

end Sys2Proof.Machine
end

