-- ==== Sys2Proof/Machine/Ops.lean ====
section
/-! DEFINITION. The shared operations over State: replacing one block, the station-state guard, posting an
event, reading a line, a quantity, a capacity, the requests of the drive lines, and what one block
delivers to another. The rules name each of them many times; each is written once. -/

namespace Sys2Proof.Machine

/-! ### Replacing one block -/

def State.withStartup (s : State) (x : StartUp) : State := { s with startup := x }
def State.withLines (s : State) (x : FieldLines) : State := { s with lines := x }
def State.withScanner (s : State) (x : Scanner) : State := { s with scanner := x }
def State.withLink (s : State) (x : Link) : State := { s with link := x }
def State.withRoster (s : State) (x : List PeerRec) : State := { s with roster := x }
def State.withMeter (s : State) (x : Meter) : State := { s with meter := x }
def State.withCompressor (s : State) (x : Compressor) : State := { s with compressor := x }
def State.withDryer (s : State) (x : Dryer) : State := { s with dryer := x }
def State.withShare (s : State) (x : Share) : State := { s with share := x }
def State.withDirection (s : State) (x : Direction) : State := { s with direction := x }
def State.withAccounts (s : State) (x : Accounts) : State := { s with accounts := x }
def State.withEvents (s : State) (x : Events) : State := { s with events := x }
def State.withInbox (s : State) (x : Inbox) : State := { s with inbox := x }
def State.withPending (s : State) (x : List Instr) : State := { s with pending := x }

/-! ### Station state and timers -/

/-- The station is LISTENING or RUNNING: the states in which the blocks work (R4, R36, R101, R119, R167,
R191, R196). -/
def State.active (s : State) : Bool :=
  match s.startup.station with
  | .listening => true
  | .running => true
  | .loading => false
  | .configFault => false
  | .duplicate => false

/-- The image in use (R202). -/
def State.cfg (s : State) : Image := s.startup.image

/-- `f` where the station is LISTENING or RUNNING; elsewhere no such event happens and nothing changes
(log 2). -/
def whenActive (s : State) (f : State → State) : State := if s.active then f s else s

/-- Whether a timer is running. -/
def Timer.isRunning : Timer → Bool
  | .stopped => false
  | .running _ => true

/-- A timer started at `n` seconds. -/
def Timer.ofSeconds (n : Nat) : Timer := .running (n * 1000)

/-- A timer started at `n` minutes. -/
def Timer.ofMinutes (n : Nat) : Timer := .running (n * 60000)

/-! ### Events (R194, R196) -/

/-- One event posted by R194. Outside LISTENING and RUNNING no event is posted (R196). -/
def post (kind : EventKind) (detail : Nat) (s : State) : State :=
  if s.active then
    if s.events.queue.length < Config.eventPlaces then
      s.withEvents { s.events with
        queue := s.events.queue ++ [{ kind := kind, detail := detail, seconds := s.events.clock }] }
    else s.withEvents { s.events with lost := true }
  else s

/-- Several events posted in one act, in order (R194). -/
def postAll : List (EventKind × Nat) → State → State
  | [], s => s
  | (k, d) :: rest, s => postAll rest (post k d s)

/-! ### Field lines (R3, R6, R7) -/

/-- The electrical level as a logical level: true for asserted (R3). -/
def logical (p : Polarity) (high : Bool) : Bool :=
  match p with
  | .activeHigh => high
  | .activeLow => !high

/-- The configured record of a line, 1 to 24, in the image in use. -/
def lineCfg? (img : Image) (line : Nat) : Option LineCfg :=
  if line = 0 then none else img.lines[line - 1]?

/-- The line that carries a role, 1 to 24; a checked image has exactly one for each required role (R2). -/
def lineOf? (img : Image) (role : Role) : Option Nat :=
  (img.lines.findIdx? (fun c => decide (c.role = role))).map (· + 1)

/-- The state record of a line. -/
def FieldLines.lineRec (f : FieldLines) (line : Nat) : LineRec := f.recs.getD (line - 1) LineRec.reset

/-- The state record of a line replaced. -/
def FieldLines.setRec (f : FieldLines) (line : Nat) (r : LineRec) : FieldLines :=
  { f with recs := f.recs.set (line - 1) r }

/-- The debounced level of the line that carries a SENSE role (R6). -/
def State.level (s : State) (role : Role) : Bool :=
  match lineOf? s.cfg role with
  | some n => (s.lines.lineRec n).debounced
  | none => false

/-- The drive requests replaced by their owner (R7). -/
def State.setRequests (s : State) (f : DriveReqs → DriveReqs) : State :=
  s.withLines { s.lines with requests := f s.lines.requests }

/-! ### Quantities (R19) -/

/-- One of the five. -/
def getQty {α : Type} (p : PerQty α) : Qty → α
  | .wellP => p.wellP
  | .wellT => p.wellT
  | .lineP => p.lineP
  | .dewOut => p.dewOut
  | .regenT => p.regenT

/-- One of the five replaced. -/
def setQty {α : Type} (p : PerQty α) (q : Qty) (x : α) : PerQty α :=
  match q with
  | .wellP => { p with wellP := x }
  | .wellT => { p with wellT := x }
  | .lineP => { p with lineP := x }
  | .dewOut => { p with dewOut := x }
  | .regenT => { p with regenT := x }

/-- A quantity's record. -/
def State.qty (s : State) (q : Qty) : QtyRec := getQty s.scanner.quantities q

/-- The value of a quantity for a limit or judgement use: only in GOOD and HELD (R19). -/
def State.usable (s : State) (q : Qty) : Option Int :=
  match (s.qty q).state with
  | .good => some (s.qty q).value
  | .held => some (s.qty q).value
  | .none => none
  | .failed => none

/-! ### Units and towers -/

/-- A unit's record. -/
def Compressor.unit (c : Compressor) : UnitId → UnitRec
  | .one => c.u1
  | .two => c.u2

/-- A unit's record replaced. -/
def Compressor.setUnit (c : Compressor) (u : UnitId) (r : UnitRec) : Compressor :=
  match u with
  | .one => { c with u1 := r }
  | .two => { c with u2 := r }

/-- The other unit. -/
def otherUnit : UnitId → UnitId
  | .one => .two
  | .two => .one

/-- A unit's number (R102). -/
def unitNumber : UnitId → Nat
  | .one => 1
  | .two => 2

/-- A tower's record. -/
def Dryer.tower (d : Dryer) : Tower → TowerRec
  | .a => d.a
  | .b => d.b

/-- A tower's record replaced. -/
def Dryer.setTower (d : Dryer) (t : Tower) (r : TowerRec) : Dryer :=
  match t with
  | .a => { d with a := r }
  | .b => { d with b := r }

/-- The other tower. -/
def otherTower : Tower → Tower
  | .a => .b
  | .b => .a

/-- A tower's number in event details (R122). -/
def towerNumber : Tower → Nat
  | .a => 1
  | .b => 2

/-! ### Capacity (R92, R93) -/

/-- The capacity of one unit (R92): UNIT at floor(WELL_P × 64 / LINE_P), 0 when either is unusable. -/
def unitCapacity (s : State) : Nat :=
  match s.usable .wellP, s.usable .lineP with
  | some p, some l => curveAt s.cfg.curves.unit ((p * 64).fdiv l)
  | _, _ => 0

/-- The number of units whose state meets a condition. -/
def unitsThat (c : Compressor) (f : UnitState → Bool) : Nat :=
  (if f c.u1.state then 1 else 0) + (if f c.u2.state then 1 else 0)

/-- C_avail: units not in LOCKOUT (R93). -/
def cAvail (s : State) : Nat :=
  unitCapacity s * unitsThat s.compressor (fun x => decide (x ≠ .lockout))

/-- C_run: units in RUNNING (R93). -/
def cRun (s : State) : Nat :=
  unitCapacity s * unitsThat s.compressor (fun x => decide (x = .running))

/-! ### Receive buffers (R28, R29) -/

/-- The consumer of an accepted frame (R27). -/
def consumerOf : RxBody → Consumer
  | .mark _ _ => .accountStore
  | .nominate _ _ _ => .accountStore
  | .setup _ _ _ => .accountStore
  | .balance _ _ => .accountStore
  | .retire _ => .accountStore
  | .clear .trip => .directionController
  | .clear (.unit _) => .compressorDuty
  | .clear (.tower _) => .dryerUnit
  | .status _ => .peerRoster
  | .query _ => .queryResponder

/-- The oldest waiting frame of a consumer, and the buffers without it (R29). -/
def takeFrame (c : Consumer) : List RxFrame → Option (RxFrame × List RxFrame)
  | [] => none
  | f :: rest =>
    if consumerOf f.body = c then some (f, rest)
    else (takeFrame c rest).map (fun (g, others) => (g, f :: others))

/-- A consumer takes its oldest frame: `act` answers what the consumer then does, or none where the
frame is not the kind this step takes (log 2). Taking frees the buffer at once (R29). -/
def takeBy (c : Consumer) (s : State) (act : RxFrame → Option (State → State)) : State :=
  whenActive s fun s =>
    match takeFrame c s.link.buffers with
    | none => s
    | some (f, rest) =>
      match act f with
      | none => s
      | some g => g (s.withLink { s.link with buffers := rest })

/-! ### Deliveries of line changes (R6) -/

/-- The oldest waiting change of a role, and the list without it. -/
def takeChange (role : Role) : List (Role × Bool) → Option (Bool × List (Role × Bool))
  | [] => none
  | (r, lvl) :: rest =>
    if r = role then some (lvl, rest)
    else (takeChange role rest).map (fun (l, others) => (l, (r, lvl) :: others))

/-- The owner of `role` takes the role's oldest waiting change when it is to level `lvl` (R6), and does
`act`. -/
def takeLine (role : Role) (lvl : Bool) (s : State) (act : State → State) : State :=
  whenActive s fun s =>
    match takeChange role s.inbox.lineChanges with
    | none => s
    | some (l, rest) =>
      if l = lvl then act (s.withInbox { s.inbox with lineChanges := rest }) else s

end Sys2Proof.Machine
end

