-- ==== Sys2Proof/Machine/Operands.lean ====
section
/-! DEFINITION. The forms of a command's operands: the frames of the pad link as bytes and as named
fields (R20, R26, R27, R37 to R43), received and sent. -/

namespace Sys2Proof.Machine

/-! ### Headers and whole frames (R20, R21, R210) -/

/-- The kind field: the upper four bits of the first header byte. -/
def headerKind (h0 : Byte) : Nat := h0.toNat / 16

/-- The sender field: the lower four bits of the first byte and the upper two of the second. -/
def headerSender (h0 h1 : Byte) : Nat := h0.toNat % 16 * 4 + h1.toNat / 64

/-- The length field: the lower six bits of the second byte. -/
def headerLen (h1 : Byte) : Nat := h1.toNat % 64

/-- The two header bytes of a frame. -/
def headerBytes (kind sender len : Nat) : List Byte :=
  [BitVec.ofNat 8 (kind * 16 + sender / 4), BitVec.ofNat 8 (sender % 4 * 64 + len)]

/-- The kind code of a frame the part sends (R27). -/
def txKindCode : TxKind → Nat
  | .status => 7
  | .report => 9
  | .event => 10

/-- The bytes of a frame: header, payload, CRC (R20, R21). -/
def frameBytes (kind sender : Nat) (payload : List Byte) : List Byte :=
  let covered := headerBytes kind sender payload.length ++ payload
  covered ++ [crc8 covered]

/-- The bits of a byte, most significant first. -/
def byteBits (b : Byte) : List Bool :=
  [b.getLsbD 7, b.getLsbD 6, b.getLsbD 5, b.getLsbD 4, b.getLsbD 3, b.getLsbD 2, b.getLsbD 1,
   b.getLsbD 0]

/-- Each byte's bits followed by a dominant sync bit, but for the last, the CRC (R210). -/
def codedBits : List Byte → List Bool
  | [] => []
  | [crc] => byteBits crc
  | b :: rest => byteBits b ++ false :: codedBits rest

/-- A frame's bits on the line: the dominant start bit, then its bytes with their sync bits; false is
dominant (R20, R210). -/
def lineBits (bytes : List Byte) : List Bool := false :: codedBits bytes

/-- The ten kind and sender bits of a frame (R23). -/
def arbitrationBits (bytes : List Byte) : List Bool := (bytes.flatMap byteBits).take 10

/-! ### Received frames (R26, R27, R38, R40) -/

/-- A terminal: a sender on the configured terminal list. -/
def isTerminal (img : Image) (sender : Nat) : Bool := img.terminals.contains sender

/-- A station address (00_scope.md, Addresses). -/
def isStation (sender : Nat) : Bool := decide (1 ≤ sender) && decide (sender ≤ 32)

/-- A bit field of a payload: `k` bytes from byte `i` on. -/
def field (i k : Nat) (p : List Byte) : List Byte := (p.drop i).take k

/-- An unsigned field of a payload. -/
def fieldU (i k : Nat) (p : List Byte) : Nat := beNat (field i k p)

/-- A signed field of a payload. -/
def fieldS (i k : Nat) (p : List Byte) : Int := beInt (field i k p)

/-- The STATUS layout (R39). -/
def readStatus (p : List Byte) : StatusFields :=
  { dirCode := p.getD 0 0, flags := beWord (field 1 2 p), aInj := fieldU 3 3 p, aWd := fieldU 6 3 p
    flow := fieldS 9 3 p, p := fieldU 12 3 p, openSeq := beWord (field 15 2 p)
    digest := beWord (field 17 2 p), signature := beWord (field 19 2 p) }

/-- The CLEAR targets (R43). -/
def clearTargetOf : Nat → Option ClearTarget
  | 1 => some .trip
  | 2 => some (.unit .one)
  | 3 => some (.unit .two)
  | 4 => some (.tower .a)
  | 5 => some (.tower .b)
  | _ => none

/-- The table roles (R43). -/
def tableRoleOf : Nat → Option TableRole
  | 1 => some .openRole
  | 2 => some .pendingRole
  | 3 => some .closedRole
  | _ => none

/-- The QUERY selectors and their arguments (R40, R43). -/
def readQuery (p : List Byte) : Option Query :=
  match fieldU 0 1 p with
  | 1 => some (.account (fieldU 1 2 p))
  | 2 => (tableRoleOf (fieldU 1 1 p)).map (fun r => .entry r (fieldU 2 2 p))
  | 3 => some (.peer (fieldU 1 1 p))
  | 4 => some (.quantity (fieldU 1 1 p))
  | 5 => some .lines
  | 6 => some .station
  | _ => none

/-- The length of a received kind (R38); REPORT and EVENT are discarded whatever their length. -/
def kindLength : Nat → Option Nat
  | 1 => some 4
  | 2 => some 7
  | 3 => some 8
  | 4 => some 8
  | 5 => some 2
  | 6 => some 1
  | 7 => some 21
  | 8 => some 4
  | _ => none

/-- The payload of a received frame as its named fields; none where its kind has no consumer or a field
holds a value that is discarded (R26, R27, R40). -/
def readBody (kind : Nat) (p : List Byte) : Option RxBody :=
  match kind with
  | 1 => some (.mark (beWord (field 0 2 p)) (fieldU 2 2 p))
  | 2 =>
    if fieldS 4 3 p = -8388608 then none
    else some (.nominate (beWord (field 0 2 p)) (fieldU 2 2 p) (fieldS 4 3 p))
  | 3 =>
    if fieldU 2 3 p ≤ 2000000 ∧ fieldU 5 3 p ≤ 2000000 then
      some (.setup (fieldU 0 2 p) (fieldU 2 3 p) (fieldU 5 3 p))
    else none
  | 4 => some (.balance (fieldU 0 2 p) (fieldS 2 6 p))
  | 5 => some (.retire (fieldU 0 2 p))
  | 6 => (clearTargetOf (fieldU 0 1 p)).map .clear
  | 7 => some (.status (readStatus p))
  | 8 => (readQuery p).map .query
  | _ => none

/-- Whether a sender's class admits a kind (R27). -/
def senderOk (img : Image) (kind sender : Nat) : Bool :=
  if kind = 7 then isStation sender else isTerminal img sender

/-- A complete frame judged by R26 and R27: the accepted frame, or none where it is discarded. -/
def acceptFrame (img : Image) : List Byte → Option RxFrame
  | h0 :: h1 :: rest =>
    let kind := headerKind h0
    let sender := headerSender h0 h1
    let len := headerLen h1
    let payload := rest.take len
    if len ≤ 24 ∧ rest.length = len + 1 ∧ crc8 (h0 :: h1 :: payload) = rest.getD len 0 ∧
        kindLength kind = some len ∧ senderOk img kind sender = true then
      (readBody kind payload).map (fun b =>
        { sender := sender, dup := decide (kind = 7) && decide (sender = img.ownAddress), body := b })
    else none
  | _ => none

/-! ### Sent payloads (R39, R41, R42) -/

/-- A STATUS payload (R39). -/
def statusPayload (f : StatusFields) : List Byte :=
  f.dirCode :: putWord f.flags ++ putU 3 f.aInj ++ putU 3 f.aWd ++ putS 3 f.flow ++ putU 3 f.p ++
  putWord f.openSeq ++ putWord f.digest ++ putWord f.signature

/-- Bit 11 of the flags, RX_OVERRUN, of a STATUS payload: bit 3 of byte 1 (R39). -/
def statusOverrun (p : List Byte) : Bool := (p.getD 1 0).getLsbD 3

/-- A STATUS payload with RX_OVERRUN set (R30). -/
def setStatusOverrun (p : List Byte) : List Byte := p.set 1 (p.getD 1 0 ||| 0x08#8)

/-- The event codes (R43). -/
def eventCode : EventKind → Nat
  | .linkTxFail => 1
  | .dupAddress => 2
  | .peerNew => 3
  | .peerStale => 4
  | .peerReturn => 5
  | .peerLost => 6
  | .configMismatch => 7
  | .periodDisagree => 8
  | .quantityFailed => 9
  | .quantityRestored => 10
  | .scanOverrun => 11
  | .meterOverrange => 12
  | .meterUnexpected => 13
  | .pressureRate => 14
  | .unitStartFail => 15
  | .unitTrip => 16
  | .unitLockout => 17
  | .towerSwitch => 18
  | .towerFault => 19
  | .offSpecOn => 20
  | .offSpecOff => 21
  | .lineupFail => 22
  | .directionChange => 23
  | .trip => 24
  | .tripCleared => 25
  | .clearRefused => 26
  | .nomRefused => 27
  | .nomCurtailed => 28
  | .acctFull => 29
  | .balanceRefused => 30
  | .retireRefused => 31
  | .periodRotate => 32
  | .periodOwnClock => 33
  | .periodSkip => 34
  | .closeLost => 35
  | .queryDropped => 36

/-- An EVENT payload (R42). -/
def eventPayload (e : EventRec) : List Byte :=
  putU 1 (eventCode e.kind) ++ putU 2 e.detail ++ putU 4 e.seconds

/-- The direction state codes; RUNDOWN by its remembered direction (R43). -/
def dirCode (st : DirState) (remembered : Flow) : Nat :=
  match st, remembered with
  | .idle, _ => 0
  | .lineupInj, _ => 1
  | .lineupWd, _ => 2
  | .inject, _ => 3
  | .withdraw, _ => 4
  | .rundown, .inj => 5
  | .rundown, .wd => 6
  | .tripped, _ => 7

/-- The station state codes (R43). -/
def stationCode : Station → Nat
  | .loading => 0
  | .configFault => 1
  | .listening => 2
  | .running => 3
  | .duplicate => 4

/-- The CLEAR target codes (R43). -/
def clearCode : ClearTarget → Nat
  | .trip => 1
  | .unit .one => 2
  | .unit .two => 3
  | .tower .a => 4
  | .tower .b => 5

/-- The table role codes (R43). -/
def tableRoleCode : TableRole → Nat
  | .openRole => 1
  | .pendingRole => 2
  | .closedRole => 3

/-- The peer state codes (R43). -/
def peerStateCode : PeerState → Nat
  | .absent => 0
  | .fresh => 1
  | .stale => 2

/-- The quantity state codes (R43). -/
def qStateCode : QState → Nat
  | .none => 0
  | .good => 1
  | .held => 2
  | .failed => 3

/-- The quantity ids (R13, R43). -/
def qtyId : Qty → Nat
  | .wellP => 1
  | .wellT => 2
  | .lineP => 3
  | .dewOut => 4
  | .regenT => 5

/-- The quantity of an id (R43). -/
def qtyOf : Nat → Option Qty
  | 1 => some .wellP
  | 2 => some .wellT
  | 3 => some .lineP
  | 4 => some .dewOut
  | 5 => some .regenT
  | _ => none

/-- The tower state codes (R43). -/
def towerStateCode : TowerState → Nat
  | .onLine => 0
  | .hold => 1
  | .heating => 2
  | .cooling => 3
  | .standby => 4
  | .faulted => 5

/-- The selector code of a query (R43). -/
def selectorCode : Query → Nat
  | .account _ => 1
  | .entry _ _ => 2
  | .peer _ => 3
  | .quantity _ => 4
  | .lines => 5
  | .station => 6

/-- The selector code of a closing REPORT (R43). -/
def closingSelector : Nat := 7

/-- The NOT_FOUND bit of the mark byte (R41). -/
def notFoundMark : Nat := 128

/-- A flag as a bit value. -/
def bitValue (b : Bool) (v : Nat) : Nat := if b then v else 0

/-- The mark byte of an ENTRY or CLOSING REPORT: role, present, curtailed (R41). -/
def entryMark (role : TableRole) (e : Entry) : Nat :=
  tableRoleCode role + bitValue e.nomination.isSome 4 + bitValue e.curtailed 8

/-- The fields that ENTRY and CLOSING REPORTs share, nomination first (R41). -/
def entryColumns (e : Entry) : List Byte :=
  putS 3 (e.nomination.getD 0) ++ putU 4 e.injected ++ putU 4 e.withdrawn ++ putU 3 e.fuel ++
  putU 4 e.offSpec

/-- An ENTRY REPORT (R41). -/
def entryPayload (role : TableRole) (code : Nat) (e : Entry) : List Byte :=
  putU 1 2 ++ putU 1 (entryMark role e) ++ putU 2 code ++ entryColumns e

/-- A CLOSING REPORT (R41, R182). -/
def closingPayload (seq : Word16) (code : Nat) (e : Entry) : List Byte :=
  putU 1 closingSelector ++ putU 1 (entryMark .closedRole e) ++ putWord seq ++ putU 2 code ++
  entryColumns e

/-- An account's inventory (R169). -/
def inventory (r : AccRec) : Int := acc64 (r.opening + r.net)

/-- An ACCOUNT REPORT (R41, R198). -/
def accountPayload (r : AccRec) : List Byte :=
  putU 1 1 ++ putU 1 0 ++ putU 2 r.code ++ putS 6 (inventory r) ++ putS 6 r.net ++ putU 4 r.fuel ++
  putU 4 r.offSpec

/-- A PEER REPORT (R41, R53). -/
def peerPayload (address : Nat) (r : PeerRec) : List Byte :=
  putU 1 3 ++ putU 1 (peerStateCode r.state) ++ putU 1 address ++ statusPayload r.last

/-- A QUANTITY REPORT (R41, R199). -/
def quantityPayload (q : Qty) (r : QtyRec) : List Byte :=
  putU 1 4 ++ putU 1 (qStateCode r.state) ++ putU 1 (qtyId q) ++ putS 2 r.value

/-- Eight levels as a byte, the first at bit 7 (R41). -/
def levelsByte (ls : List Bool) : Nat := (ls.take 8).foldl (fun acc b => acc * 2 + bitValue b 1) 0

/-- A LINES REPORT from the 24 levels in line order (R41, R11). -/
def linesPayload (ls : List Bool) : List Byte :=
  putU 1 5 ++ putU 1 0 ++ putU 1 (levelsByte ls) ++ putU 1 (levelsByte (ls.drop 8)) ++
  putU 1 (levelsByte (ls.drop 16))

/-- A REPORT with NOT_FOUND set: its selector, its mark byte, the echoed argument, zeros to its full
length (R41, R201). -/
def notFoundPayload (selector marks len : Nat) (echo : List Byte) : List Byte :=
  let head := putU 1 selector ++ putU 1 (notFoundMark + marks) ++ echo
  head ++ List.replicate (len - head.length) 0#8

end Sys2Proof.Machine
end

