-- ==== Sys2Proof/Machine/Direction.lean ====
section
/-! DEFINITION. The Direction Controller (R146 to R168): the direction machine, lineups, rundown, trips and
clears, the ramp and the duty request. -/

namespace Sys2Proof.Machine

/-! ### Terms (R149, R154, R166) -/

/-- WHV confirmed open (R149). -/
def whvOpen (s : State) : Bool := s.level .whvOpenFb && !s.level .whvClosedFb

/-- WHV confirmed closed (R149). -/
def whvClosed (s : State) : Bool := s.level .whvClosedFb && !s.level .whvOpenFb

/-- The line valve of a direction is open (R149). -/
def lineOpen (f : Flow) (s : State) : Bool :=
  match f with
  | .inj => s.level .injvFb
  | .wd => s.level .wdvFb

/-- A unit is RUNNING, by the Compressor Duty Unit's records as they stand (R154). -/
def anyRunning (s : State) : Bool :=
  decide (s.compressor.u1.state = .running ∨ s.compressor.u2.state = .running)

/-- The unit condition of a lineup: injection only (R154). -/
def unitReady (f : Flow) (s : State) : Bool :=
  match f with
  | .inj => anyRunning s
  | .wd => true

/-- The conditions of a lineup hold (R154). -/
def lineupDone (f : Flow) (s : State) : Bool := whvOpen s && lineOpen f s && unitReady f s

/-- The mask of the conditions that do not hold (R155). -/
def missingMask (f : Flow) (s : State) : Nat :=
  bitValue (!whvOpen s) 1 + bitValue (!lineOpen f s) 2 + bitValue (!unitReady f s) 4

/-- The duty of a ramp value: min(1000, floor(R × 1000 / Rfull)) (R166). -/
def dutyOf (rfull r : Nat) : Nat := min 1000 (r * 1000 / rfull)

/-- The lineup state of a direction. -/
def lineupState : Flow → DirState
  | .inj => .lineupInj
  | .wd => .lineupWd

/-- The flowing state of a direction. -/
def flowState : Flow → DirState
  | .inj => .inject
  | .wd => .withdraw

/-- The direction of a lineup state. -/
def lineupFlow : DirState → Option Flow
  | .lineupInj => some .inj
  | .lineupWd => some .wd
  | .idle => none
  | .inject => none
  | .withdraw => none
  | .rundown => none
  | .tripped => none

/-- The direction of a flowing state. -/
def flowing : DirState → Option Flow
  | .inject => some .inj
  | .withdraw => some .wd
  | .idle => none
  | .lineupInj => none
  | .lineupWd => none
  | .rundown => none
  | .tripped => none

/-- A direction d as a flow; HOLD is none. -/
def dirFlow : Dir → Option Flow
  | .inj => some .inj
  | .wd => some .wd
  | .hold => none

/-! ### What every entry does (R148) -/

/-- The requests of the three valve commands and TRIP_OUT (R148). -/
def setValves (whv injv wdv trip : Bool) (s : State) : State :=
  s.setRequests fun d => { d with whv := whv, injv := injv, wdv := wdv, tripOut := trip }

/-- The valve commands that open a direction (R148). -/
def openValves (f : Flow) (s : State) : State :=
  match f with
  | .inj => setValves true true false false s
  | .wd => setValves true false true false s

/-- The new direction state is delivered to the Compressor Duty Unit (R95, R148). -/
def tellTrain (s : State) : State :=
  s.withInbox { s.inbox with
    dirChanges := s.inbox.dirChanges ++ [(s.direction.state, s.direction.remembered)] }

/-- An entry into IDLE or TRIPPED is also delivered to the Meter Unit (R68, R148). -/
def tellMeter (s : State) : State :=
  s.withInbox { s.inbox with meterEntries := s.inbox.meterEntries ++ [s.direction.state] }

/-! ### INJECT and WITHDRAW (R157, R158) -/

/-- The hold condition: held d is HOLD or held P is 0 (R158). -/
def holdWanted (d : Direction) : Bool := decide (d.heldD = .hold ∨ d.heldP = 0)

/-- The hold judgement: the timer starts, runs on or stops (R158). -/
def judgeHold (holdTime : Nat) (d : Direction) : Direction :=
  if holdWanted d then (if d.holdTimer.isRunning then d else { d with holdTimer := .ofSeconds holdTime })
  else { d with holdTimer := .stopped }

/-- The Direction Controller's record on entry to a flowing state (R157). -/
def flowRec (holdTime : Nat) (f : Flow) (d : Direction) : Direction :=
  judgeHold holdTime { d with
    state := flowState f
    r := 0
    duty := 0
    lineupFails := 0
    lastFlow := some f
    rampTimer := .running Config.rampPeriod
    lineupTimer := .stopped
    holdTimer := .stopped
    closeTimer := .stopped
    settle := .stopped }

/-- DIRECTION_CHANGE's detail (R157). -/
def flowDetail : Flow → Nat
  | .inj => 1
  | .wd => 2

/-- Entry to INJECT or WITHDRAW (R157). -/
def enterFlow (f : Flow) (s : State) : State :=
  post .directionChange (flowDetail f)
    (tellTrain (openValves f (s.withDirection (flowRec s.cfg.station.holdTime f s.direction))))

/-! ### Lineups (R153, R154) -/

/-- A lineup completes where its conditions hold (R154). -/
def judgeLineup (s : State) : State :=
  match lineupFlow s.direction.state with
  | none => s
  | some f => if lineupDone f s then enterFlow f s else s

/-- Entry to a lineup: valves asserted, lineup timer started, completion judged in the same act (R153). -/
def enterLineup (f : Flow) (s : State) : State :=
  judgeLineup (tellTrain (openValves f (s.withDirection { s.direction with
    state := lineupState f
    duty := 0
    lineupTimer := .ofSeconds s.cfg.station.lineupTimeout
    holdTimer := .stopped
    closeTimer := .stopped
    rampTimer := .stopped
    settle := .stopped })))

/-! ### IDLE (R151, R152) -/

/-- The settle condition toward a direction: the last flow is none or the same, or the mark is set
(R152). -/
def settled (f : Flow) (d : Direction) : Bool :=
  decide (d.lastFlow = none ∨ d.lastFlow = some f) || d.settleMark

/-- The direction of the lineup for which IDLE may be left, if any (R152). -/
def exitFlow (s : State) : Option Flow :=
  match dirFlow s.direction.heldD with
  | none => none
  | some f =>
    if 0 < s.direction.heldP ∧ s.startup.station = .running ∧ settled f s.direction = true then some f
    else none

/-- The exit from IDLE judged (R152). -/
def judgeExit (s : State) : State :=
  if s.direction.state = .idle then
    match exitFlow s with
    | some f => enterLineup f s
    | none => s
  else s

/-- The record on entry to IDLE: the settle timer started and the mark clear; a settle time of 0 sets
the mark at once (R147, R151). -/
def idleRec (settleTime : Nat) (d : Direction) : Direction :=
  { d with
    state := .idle
    duty := 0
    settle := if settleTime = 0 then .stopped else .ofSeconds settleTime
    settleMark := decide (settleTime = 0)
    lineupTimer := .stopped
    holdTimer := .stopped
    closeTimer := .stopped
    rampTimer := .stopped }

/-- Entry to IDLE, its exit judged in the same act (R148, R151, R152). -/
def enterIdle (s : State) : State :=
  judgeExit (tellMeter (tellTrain (setValves false false false false
    (s.withDirection (idleRec s.cfg.station.settleTime s.direction)))))

/-! ### TRIPPED (R162) -/

/-- A trip cause's code (R162). -/
def causeCode : TripCause → Nat
  | .estop => 1
  | .valve => 2
  | .lineup => 3

/-- The code of a trip cause, 0 for none. -/
def causeCodeOf : Option TripCause → Nat
  | none => 0
  | some c => causeCode c

/-- Entry to TRIPPED (R162): R and the duty 0 at once, valves released, TRIP_OUT asserted, timers
stopped, the cause set, TRIP posted with the state left. -/
def enterTripped (cause : TripCause) (s : State) : State :=
  post .trip (causeCode cause + 256 * dirCode s.direction.state s.direction.remembered)
    (tellMeter (tellTrain (setValves false false false true (s.withDirection { s.direction with
      state := .tripped
      r := 0
      duty := 0
      cause := some cause
      lineupTimer := .stopped
      holdTimer := .stopped
      closeTimer := .stopped
      rampTimer := .stopped
      settle := .stopped }))))

/-! ### RUNDOWN (R159, R160) -/

/-- Phase CLOSE begins: the valve commands released, the close timer started, and IDLE at once where WHV
is confirmed closed (R160). -/
def beginClose (s : State) : State :=
  let s1 := setValves false false false false (s.withDirection { s.direction with
    phase := .close
    duty := dutyOf s.cfg.station.rfull s.direction.r
    rampTimer := .stopped
    closeTimer := .ofSeconds s.cfg.station.closeTimeout })
  if whvClosed s1 then enterIdle s1 else s1

/-- Entry to RUNDOWN with the direction remembered, phase RAMP; phase CLOSE in the same act when R is 0
(R148, R159). -/
def enterRundown (f : Flow) (s : State) : State :=
  let s1 := tellTrain (s.withDirection { s.direction with
    state := .rundown
    remembered := f
    phase := .ramp
    duty := dutyOf s.cfg.station.rfull s.direction.r
    lineupTimer := .stopped
    holdTimer := .stopped
    closeTimer := .stopped
    settle := .stopped })
  if s.direction.r = 0 then beginClose s1 else s1

/-! ### Deliveries from the Share Engine (R150, R152, R156, R158) -/

/-- A delivery judged in a lineup: another d aborts it (R156). -/
def lineupDelivery (f : Flow) (d : Dir) (s : State) : State :=
  if dirFlow d = some f then s else enterRundown f s

/-- A delivery judged in a flowing state: the opposite direction leaves it at once, otherwise the hold
condition is judged (R158). -/
def flowDelivery (f : Flow) (d : Dir) (s : State) : State :=
  if dirFlow d = some f ∨ d = .hold then
    s.withDirection (judgeHold s.cfg.station.holdTime s.direction)
  else enterRundown f s

/-- A delivery of P and d (R150). -/
def deliver (p : Nat) (d : Dir) (s : State) : State :=
  let s1 := s.withDirection { s.direction with heldP := p, heldD := d }
  match s.direction.state with
  | .idle => judgeExit s1
  | .lineupInj => lineupDelivery .inj d s1
  | .lineupWd => lineupDelivery .wd d s1
  | .inject => flowDelivery .inj d s1
  | .withdraw => flowDelivery .wd d s1
  | .rundown => s1
  | .tripped => s1

/-- The oldest delivery that waits is taken (R150). -/
def takeDelivery (s : State) : State :=
  whenActive s fun s =>
    match s.inbox.deliveries with
    | [] => s
    | (p, d) :: rest => deliver p d (s.withInbox { s.inbox with deliveries := rest })

/-! ### The ramp (R164, R165, R166) -/

/-- R is bounded by held C_run: INJECT and RUNDOWN after injection (R165). -/
def boundedByRun (d : Direction) : Bool :=
  decide (d.state = .inject ∨ (d.state = .rundown ∧ d.remembered = .inj))

/-- R lowered to held C_run where it stands above it (R165). -/
def clampR (d : Direction) : Direction :=
  if boundedByRun d then { d with r := min d.r d.heldCrun } else d

/-- The ramp target (R164). -/
def rampTarget (d : Direction) : Nat :=
  match d.state with
  | .inject => min d.heldP d.heldCrun
  | .withdraw => d.heldP
  | .rundown => 0
  | .idle => d.r
  | .lineupInj => d.r
  | .lineupWd => d.r
  | .tripped => d.r

/-- The step over a distance: ceil(distance × α / 32), limited to Δmax (R164). -/
def rampSize (alpha deltaMax distance : Nat) : Nat := min deltaMax ((distance * alpha + 31) / 32)

/-- R moved toward its target by one step (R164). -/
def moveR (alpha deltaMax r target : Nat) : Nat :=
  if r < target then r + rampSize alpha deltaMax (target - r)
  else r - rampSize alpha deltaMax (r - target)

/-- The record after a ramp step that read `run` (R164, R165, R166). -/
def stepRec (c : StationCfg) (run : Nat) (d : Direction) : Direction :=
  let d1 := clampR { d with heldCrun := run }
  let r := moveR c.alpha c.deltaMax d1.r (rampTarget d1)
  { d1 with r := r, duty := dutyOf c.rfull r }

/-- RUNDOWN in phase RAMP with R at 0: phase CLOSE begins (R159). -/
def closeAtZero (s : State) : State :=
  if s.direction.state = .rundown ∧ s.direction.phase = .ramp ∧ s.direction.r = 0 then beginClose s else s

/-- One ramp step (R164). -/
def rampStep (s : State) : State :=
  whenActive s fun s =>
    if s.direction.rampTimer.isRunning then
      closeAtZero (s.withDirection (stepRec s.cfg.station (cRun s) s.direction))
    else s

/-- A notice taken (R154, R165): held C_run replaced in every state; a leaving notice lowers R at once
where it is bounded, an entry notice judges a lineup to injection. -/
def takeNoticeOf (n : Notice) (s : State) : State :=
  let s1 := s.withDirection { s.direction with heldCrun := n.cRun }
  if n.entered then
    (if s1.direction.state = .lineupInj then judgeLineup s1 else s1)
  else if boundedByRun s1.direction = true ∧ n.cRun < s1.direction.r then
    closeAtZero (s1.withDirection { s1.direction with
      r := n.cRun, duty := dutyOf s.cfg.station.rfull n.cRun })
  else s1

/-- The oldest notice that waits is taken (R94). -/
def takeNotice (s : State) : State :=
  whenActive s fun s =>
    match s.inbox.notices with
    | [] => s
    | n :: rest => takeNoticeOf n (s.withInbox { s.inbox with notices := rest })

/-! ### Valve feedbacks, emergency stop and clears (R149, R160, R161, R163) -/

/-- The role of a valve feedback. -/
def valveRole : ValveFb → Role
  | .whvOpen => .whvOpenFb
  | .whvClosed => .whvClosedFb
  | .injv => .injvFb
  | .wdv => .wdvFb

/-- A feedback change judged: a lineup may complete, phase CLOSE may end (R149, R154, R160). -/
def judgeFeedback (s : State) : State :=
  match s.direction.state with
  | .lineupInj => judgeLineup s
  | .lineupWd => judgeLineup s
  | .rundown => if s.direction.phase = .close ∧ whvClosed s = true then enterIdle s else s
  | .idle => s
  | .inject => s
  | .withdraw => s
  | .tripped => s

/-- The oldest change of a valve feedback is taken (R149). -/
def valveChange (fb : ValveFb) (s : State) : State :=
  whenActive s fun s =>
    match takeChange (valveRole fb) s.inbox.lineChanges with
    | none => s
    | some (_, rest) => judgeFeedback (s.withInbox { s.inbox with lineChanges := rest })

/-- An assertion of ESTOP_IN trips the pad from every state but TRIPPED (R161). -/
def estopOn (s : State) : State :=
  takeLine .estopIn true s fun s =>
    if s.direction.state = .tripped then s else enterTripped .estop s

/-- A release of ESTOP_IN changes no field (R161). -/
def estopOff (s : State) : State := takeLine .estopIn false s fun s => s

/-- The reason a clear is refused in TRIPPED, if it is (R163). -/
def clearRefusal (s : State) : Option Nat :=
  if s.level .estopIn then some 2 else if whvClosed s then none else some 3

/-- A trip cleared: cause none, failure count 0, TRIP_CLEARED, IDLE (R163). Source 1 is the frame, 2
CLEAR_IN. -/
def clearTripped (source : Nat) (s : State) : State :=
  enterIdle (post .tripCleared (causeCodeOf s.direction.cause + 256 * source)
    (s.withDirection { s.direction with cause := none, lineupFails := 0 }))

/-- A CLEAR frame with target TRIP (R163). -/
def clearByFrame (s : State) : State :=
  if s.direction.state = .tripped then
    match clearRefusal s with
    | none => clearTripped 1 s
    | some reason => post .clearRefused (1 + 256 * reason) s
  else post .clearRefused (1 + 256) s

/-- An assertion of CLEAR_IN (R163): in any state but TRIPPED it changes nothing. -/
def clearByLine (s : State) : State :=
  if s.direction.state = .tripped then
    match clearRefusal s with
    | none => clearTripped 2 s
    | some reason => post .clearRefused (256 * reason) s
  else s

/-- The Direction Controller takes its oldest CLEAR (R29, R163). -/
def takeClearTrip (s : State) : State :=
  takeBy .directionController s fun f =>
    match f.body with
    | .clear .trip => some clearByFrame
    | _ => none

/-- An assertion of CLEAR_IN is taken (R163). -/
def clearInOn (s : State) : State := takeLine .clearIn true s clearByLine

/-! ### Timers (R151, R155, R158, R160) and entry to RUNNING -/

/-- A failed lineup (R155): LINEUP_FAIL, then RUNDOWN, or TRIPPED at a count of 3. -/
def failLineup (f : Flow) (s : State) : State :=
  let n := s.direction.lineupFails + 1
  let s1 := post .lineupFail (missingMask f s + 256 * n)
    (s.withDirection { s.direction with lineupFails := n, lineupTimer := .stopped })
  if n < 3 then enterRundown f s1 else enterTripped .lineup s1

/-- The lineup timer's expiry (R155). -/
def lineupExpiry (s : State) : State :=
  whenActive s fun s =>
    if s.direction.lineupTimer.isRunning then
      match lineupFlow s.direction.state with
      | some f => failLineup f s
      | none => s
    else s

/-- The hold timer's expiry (R158). -/
def holdExpiry (s : State) : State :=
  whenActive s fun s =>
    if s.direction.holdTimer.isRunning then
      match flowing s.direction.state with
      | some f => enterRundown f s
      | none => s
    else s

/-- The close timer's expiry (R160). -/
def closeExpiry (s : State) : State :=
  whenActive s fun s =>
    if s.direction.closeTimer.isRunning then enterTripped .valve s else s

/-- The settle timer's expiry (R151, R152). -/
def settleExpiry (s : State) : State :=
  whenActive s fun s =>
    if s.direction.settle.isRunning then
      judgeExit (s.withDirection { s.direction with settle := .stopped, settleMark := true })
    else s

/-- The station's entry to RUNNING judges the exit from IDLE (R152, R167). -/
def directionEntry (s : State) : State :=
  whenActive s fun s =>
    if s.inbox.runningToDirection then
      judgeExit (s.withInbox { s.inbox with runningToDirection := false })
    else s

/-! ### The commands -/

/-- CLEAR_TRIP (R163). -/
def execClearTrip (s : State) : Host.Outcome State Fault Refusal := .next (takeClearTrip s)

/-- SHARE_DELIVERY (R150). -/
def execShareDelivery (s : State) : Host.Outcome State Fault Refusal := .next (takeDelivery s)

/-- COMPRESSOR_NOTICE (R94). -/
def execCompressorNotice (s : State) : Host.Outcome State Fault Refusal := .next (takeNotice s)

/-- VALVE_FEEDBACK_CHANGE (R149). -/
def execValveFeedbackChange (fb : ValveFb) (s : State) : Host.Outcome State Fault Refusal :=
  .next (valveChange fb s)

/-- ESTOP_IN_ASSERTION (R161). -/
def execEstopInAssertion (s : State) : Host.Outcome State Fault Refusal := .next (estopOn s)

/-- ESTOP_IN_RELEASE (R161). -/
def execEstopInRelease (s : State) : Host.Outcome State Fault Refusal := .next (estopOff s)

/-- CLEAR_IN_ASSERTION (R163). -/
def execClearInAssertion (s : State) : Host.Outcome State Fault Refusal := .next (clearInOn s)

/-- LINEUP_TIMER_EXPIRY (R155). -/
def execLineupTimerExpiry (s : State) : Host.Outcome State Fault Refusal := .next (lineupExpiry s)

/-- HOLD_TIMER_EXPIRY (R158). -/
def execHoldTimerExpiry (s : State) : Host.Outcome State Fault Refusal := .next (holdExpiry s)

/-- RAMP_STEP (R164). -/
def execRampStep (s : State) : Host.Outcome State Fault Refusal := .next (rampStep s)

/-- CLOSE_TIMER_EXPIRY (R160). -/
def execCloseTimerExpiry (s : State) : Host.Outcome State Fault Refusal := .next (closeExpiry s)

/-- SETTLE_TIMER_EXPIRY (R151). -/
def execSettleTimerExpiry (s : State) : Host.Outcome State Fault Refusal := .next (settleExpiry s)

/-- DIRECTION_RUNNING_ENTRY (R152). -/
def execDirectionRunningEntry (s : State) : Host.Outcome State Fault Refusal := .next (directionEntry s)

end Sys2Proof.Machine
end

