-- ==== Sys2Proof/Machine/Link.lean ====
section
/-! DEFINITION. The Link Controller (R20 to R36): starting and contention, receiving, the two receive
buffers, the transmit queue with its STATUS hold, and admission to it. -/

namespace Sys2Proof.Machine

/-! ### The transmit queue (R31 to R33) -/

/-- A frame as it enters the queue: collision count 0, backoff mark clear (R24, R32). -/
def newFrame (kind : TxKind) (payload : List Byte) : TxFrame :=
  { kind := kind, payload := payload, collisions := 0, backoff := false }

/-- A STATUS payload that takes the place of an unsent one carries RX_OVERRUN when that one did (R30). -/
def carryOverrun (displaced p : List Byte) : List Byte :=
  if statusOverrun displaced then setStatusOverrun p else p

/-- Whether the queue holds a STATUS. -/
def hasStatus (q : List TxFrame) : Bool := q.any (fun f => decide (f.kind = .status))

/-- The queued STATUS replaced in place: position and backoff mark kept, collision count 0 (R32). -/
def replaceStatus (p : List Byte) : List TxFrame → List TxFrame
  | [] => []
  | f :: rest =>
    if f.kind = .status then { f with payload := carryOverrun f.payload p, collisions := 0 } :: rest
    else f :: replaceStatus p rest

/-- The head frame is a STATUS. -/
def headIsStatus (q : List TxFrame) : Bool :=
  match q with
  | [] => false
  | f :: _ => decide (f.kind = .status)

/-- The queued STATUS is in transmission (R31, R32). -/
def statusInTransmission (l : Link) : Bool := l.sending.isSome && headIsStatus l.queue

/-- An offered STATUS, whose payload carries the RX_OVERRUN flag as it stands, is always taken; the flag
is cleared in the same act (R30, R32). -/
def offerStatus (p : List Byte) (l : Link) : Link :=
  if statusInTransmission l then
    { l with
      overrun := false
      hold := some (match l.hold with
        | some h => carryOverrun h p
        | none => p) }
  else if hasStatus l.queue then { l with overrun := false, queue := replaceStatus p l.queue }
  else { l with overrun := false, queue := l.queue ++ [newFrame .status p] }

/-- The STATUS in transmission has left the queue: a held STATUS is appended at the tail (R32). -/
def holdAppended (l : Link) : Link :=
  match l.hold with
  | none => l
  | some h => { l with hold := none, queue := l.queue ++ [newFrame .status h] }

/-- The STATUS in transmission stays queued: a held STATUS replaces it in place (R32). -/
def holdReplaces (l : Link) : Link :=
  match l.hold with
  | none => l
  | some h => { l with hold := none, queue := replaceStatus h l.queue }

/-- A REPORT or EVENT may be admitted: the queue holds 6 frames or fewer (R33). -/
def mayAdmit (l : Link) : Bool := decide (l.queue.length ≤ Config.feederLimit)

/-- A REPORT or EVENT at the tail of the queue (R33). -/
def enqueueFrame (kind : TxKind) (payload : List Byte) (l : Link) : Link :=
  { l with queue := l.queue ++ [newFrame kind payload] }

/-- A query's REPORT is offered at once: admitted, or dropped with QUERY_DROPPED (R35). -/
def offerReport (selector : Nat) (payload : List Byte) (s : State) : State :=
  if mayAdmit s.link then s.withLink (enqueueFrame .report payload s.link)
  else post .queryDropped selector s

/-! ### Sending (R22, R23, R24, R31) -/

/-- The recessive run that the head frame needs, in bit times (R22). -/
def requiredRun (own : Nat) (f : TxFrame) : Nat :=
  if f.backoff then Config.idleBits + 8 * own else Config.idleBits

/-- The start of the head frame after a recessive run (R22). The start bit clears the backoff mark
(R24). -/
def startSend (recessive : Nat) (s : State) : State :=
  whenActive s fun s =>
    match s.link.queue with
    | [] => s
    | f :: rest =>
      if s.link.sending = none ∧ s.link.rx = .waiting ∧ requiredRun s.cfg.ownAddress f ≤ recessive then
        s.withLink { s.link with
          queue := { f with backoff := false } :: rest
          sending := some (frameBytes (txKindCode f.kind) s.cfg.ownAddress f.payload) }
      else s

/-- Reading dominant after sending a recessive kind or sender bit: the send stops, the frame stays at
the head, and the winner's frame is received (R23). -/
def loseArbitration (bit : Nat) (s : State) : State :=
  whenActive s fun s =>
    match s.link.sending with
    | none => s
    | some bytes =>
      if (arbitrationBits bytes).getD bit false then
        let l := { s.link with sending := none, rx := .taking }
        s.withLink (if headIsStatus l.queue then holdReplaces l else l)
      else s

/-- A collision (R24): the send stops and the other frame is received; at the 16th the frame is
discarded, otherwise its count rises and its backoff mark is set. -/
def collide (s : State) : State :=
  whenActive s fun s =>
    match s.link.sending, s.link.queue with
    | some _, f :: rest =>
      let l := { s.link with sending := none, rx := .taking }
      if f.collisions + 1 < Config.collisionLimit then
        let l := { l with queue := { f with collisions := f.collisions + 1, backoff := true } :: rest }
        s.withLink (if f.kind = .status then holdReplaces l else l)
      else
        let l := { l with queue := rest }
        post .linkTxFail (txKindCode f.kind) (s.withLink (
          if f.kind = .status then
            holdAppended { l with overrun := l.overrun || statusOverrun f.payload }
          else l))
    | _, _ => s

/-- The last CRC bit of the head frame has been sent: it leaves the queue (R31). -/
def headSent (s : State) : State :=
  whenActive s fun s =>
    match s.link.sending, s.link.queue with
    | some _, f :: rest =>
      let l := { s.link with sending := none, queue := rest }
      s.withLink (if f.kind = .status then holdAppended l else l)
    | _, _ => s

/-! ### Receiving (R25 to R28, R36) -/

/-- The receiver follows the line: LISTENING, RUNNING and DUPLICATE (R36). -/
def linkFollows (s : State) : Bool := s.active || decide (s.startup.station = .duplicate)

/-- The receiver in a state. -/
def setRx (x : RxState) (s : State) : State := s.withLink { s.link with rx := x }

/-- A start bit after an idle line: the receiver takes the frame (R22, R25). -/
def startBit (s : State) : State :=
  if linkFollows s = true ∧ s.link.rx = .waiting ∧ s.link.sending = none then setRx .taking s else s

/-- An accepted frame is placed in a free buffer, or lost with RX_OVERRUN (R28). -/
def placeFrame (f : RxFrame) (l : Link) : Link :=
  if l.buffers.length < Config.bufferCount then { l with buffers := l.buffers ++ [f] }
  else { l with overrun := true }

/-- A frame taken to its end is checked and accepted or discarded (R26, R27); in DUPLICATE every frame
is discarded (R36). -/
def receiveFrame (bytes : List Byte) (s : State) : State :=
  if linkFollows s = true ∧ s.link.rx = .taking then
    let t := setRx .waiting s
    if s.active then
      match acceptFrame s.cfg bytes with
      | none => t
      | some f => t.withLink (placeFrame f t.link)
    else t
  else s

/-- A frame broken off is discarded silently (R25, R210). -/
def breakOff (s : State) : State :=
  if linkFollows s = true ∧ s.link.rx = .taking then setRx .waiting s else s

/-- A header whose length is above 24: the receiver stops taking the frame and waits for an idle line
(R25). -/
def longHeader (h1 : Byte) (s : State) : State :=
  if linkFollows s = true ∧ s.link.rx = .taking ∧ 24 < headerLen h1 then setRx .waiting s else s

/-! ### The Event Queue's admission (R34, R195) -/

/-- The oldest event leaves the Event Queue; the flag clears when none is left (R195). -/
def dropOldest (e : Events) : Events :=
  { e with queue := e.queue.tail, lost := e.lost && decide (e.queue.tail ≠ []) }

/-- The oldest event is admitted as an EVENT frame, where the queue has room and it is the Event Queue's
turn (R33, R34, R195). -/
def admitEvent (s : State) : State :=
  whenActive s fun s =>
    match s.events.queue with
    | [] => s
    | e :: _ =>
      if mayAdmit s.link = true ∧ ¬(s.accounts.cursor.isSome = true ∧ s.link.mark = .eventQueue) then
        (s.withLink { enqueueFrame .event (eventPayload e) s.link with mark := .eventQueue }).withEvents
          (dropOldest s.events)
      else s

/-! ### The commands -/

/-- LINK_TX_START (R22). -/
def execLinkTxStart (recessive : Nat) (s : State) : Host.Outcome State Fault Refusal :=
  .next (startSend recessive s)

/-- ARBITRATION_LOSS (R23). -/
def execArbitrationLoss (bit : Nat) (s : State) : Host.Outcome State Fault Refusal :=
  .next (loseArbitration bit s)

/-- COLLISION (R24). -/
def execCollision (s : State) : Host.Outcome State Fault Refusal := .next (collide s)

/-- FRAME_SENT (R31). -/
def execFrameSent (s : State) : Host.Outcome State Fault Refusal := .next (headSent s)

/-- FRAME_RECEIVE (R25). -/
def execFrameReceive (bytes : List Byte) (s : State) : Host.Outcome State Fault Refusal :=
  .next (receiveFrame bytes s)

/-- FRAME_BROKEN_OFF (R25). -/
def execFrameBrokenOff (s : State) : Host.Outcome State Fault Refusal := .next (breakOff s)

/-- HEADER_LENGTH_ABOVE_24 (R25). -/
def execHeaderLengthAbove24 (_h0 h1 : Byte) (s : State) : Host.Outcome State Fault Refusal :=
  .next (longHeader h1 s)

/-- START_BIT_AFTER_IDLE (R22). -/
def execStartBitAfterIdle (s : State) : Host.Outcome State Fault Refusal := .next (startBit s)

/-- EVENT_ADMISSION (R195). -/
def execEventAdmission (s : State) : Host.Outcome State Fault Refusal := .next (admitEvent s)

end Sys2Proof.Machine
end

