-- ==== Sys2Proof/Machine/Accounts.lean ====
section
/-! DEFINITION. The Account Store (R169 to R192): account records, rights and nominations, the period
tables and their rotation, the closing report, allocation and fuel charging. -/

namespace Sys2Proof.Machine

/-! ### Records and lookup (R169, R170) -/

/-- The record of an account index. -/
def Accounts.acc (a : Accounts) (i : Nat) : AccRec := a.recs.getD i AccRec.blank

/-- A shipper account that is present (R169). -/
def isShipper (r : AccRec) : Bool := r.present && decide (r.code ≠ 0)

/-- The bucket of a code (R170). -/
def bucketOf (code : Nat) : Nat := code % 16

/-- A chain walked from an index to the first record with the code (R170); a chain holds at most 48
records. -/
def walkChain (recs : List AccRec) (code : Nat) : Nat → Option Nat → Option Nat
  | 0, _ => none
  | _ + 1, none => none
  | n + 1, some i =>
    let r := recs.getD i AccRec.blank
    if r.code = code then some i else walkChain recs code n r.link

/-- The account index of a code (R170). -/
def lookup (a : Accounts) (code : Nat) : Option Nat :=
  if code = 0 then some 0
  else walkChain a.recs code 48 (a.buckets.getD (bucketOf code) none)

/-- The last record of the chain that starts at an index (R170). -/
def chainEnd (recs : List AccRec) : Nat → Nat → Nat
  | 0, i => i
  | n + 1, i =>
    match (recs.getD i AccRec.blank).link with
    | none => i
    | some j => chainEnd recs n j

/-- A new index appended at the end of its bucket's chain (R170). -/
def appendChain (a : Accounts) (code new : Nat) : Accounts :=
  match a.buckets.getD (bucketOf code) none with
  | none => { a with buckets := a.buckets.set (bucketOf code) (some new) }
  | some head =>
    let last := chainEnd a.recs 48 head
    { a with recs := a.recs.set last { a.acc last with link := some new } }

/-- The link or bucket head that names an index takes the record's own link (R175). -/
def unlink (a : Accounts) (i : Nat) : Accounts :=
  let next := (a.acc i).link
  { a with
    recs := a.recs.map (fun r => if r.link = some i then { r with link := next } else r)
    buckets := a.buckets.map (fun h => if h = some i then next else h) }

/-! ### Tables and roles (R176) -/

/-- A table by its name. -/
def Accounts.table (a : Accounts) : TableId → List Entry
  | .p0 => a.p0
  | .p1 => a.p1
  | .p2 => a.p2

/-- A table replaced. -/
def Accounts.setTable (a : Accounts) (t : TableId) (x : List Entry) : Accounts :=
  match t with
  | .p0 => { a with p0 := x }
  | .p1 => { a with p1 := x }
  | .p2 => { a with p2 := x }

/-- The table that holds a role (R176). -/
def Accounts.roleOf (a : Accounts) : TableRole → TableId
  | .openRole => a.openT
  | .pendingRole => a.pendingT
  | .closedRole => a.closedT

/-- The OPEN table. -/
def Accounts.openTable (a : Accounts) : List Entry := a.table a.openT

/-- An entry of a table. -/
def Accounts.entry (a : Accounts) (t : TableId) (i : Nat) : Entry := (a.table t).getD i Entry.blank

/-- An entry replaced. -/
def Accounts.setEntry (a : Accounts) (t : TableId) (i : Nat) (e : Entry) : Accounts :=
  a.setTable t ((a.table t).set i e)

/-- Some column of an entry is not 0. -/
def hasColumn (e : Entry) : Bool :=
  decide (e.injected ≠ 0 ∨ e.withdrawn ≠ 0 ∨ e.fuel ≠ 0 ∨ e.offSpec ≠ 0)

/-! ### Rights (R173) -/

/-- A rate clamped to the right of its own direction (R173). -/
def clampRate (r : AccRec) (n : Int) : Int :=
  if (r.injRight : Int) < n then r.injRight else if n < -(r.wdRight : Int) then -(r.wdRight : Int) else n

/-- NOM_CURTAILED where a clamp has changed the value (R173). -/
def curtailEvents (r : AccRec) (n : Int) : List (EventKind × Nat) :=
  if clampRate r n = n then [] else [(.nomCurtailed, r.code)]

/-- A present nomination clamped again (R173): the mark is set where the value changes, else it stands. -/
def reclamp (r : AccRec) (e : Entry) : Entry :=
  match e.nomination with
  | none => e
  | some n =>
    { e with nomination := some (clampRate r n), curtailed := e.curtailed || decide (clampRate r n ≠ n) }

/-- The events of clamping an entry's nomination (R173). -/
def reclampEvents (r : AccRec) (e : Entry) : List (EventKind × Nat) :=
  match e.nomination with
  | none => []
  | some n => curtailEvents r n

/-- A rate placed by NOMINATE (R173, R183). -/
def placed (r : AccRec) (n : Int) (e : Entry) : Entry :=
  { e with nomination := some (clampRate r n), curtailed := decide (clampRate r n ≠ n) }

/-! ### Account frames (R172, R174, R175) -/

/-- SETUP of a code that lookup finds: the rights replaced, OPEN and PENDING clamped again (R172). -/
def setupFound (i injR wdR : Nat) (s : State) : State :=
  let a := s.accounts
  let r := { a.acc i with injRight := injR, wdRight := wdR }
  let eo := a.entry a.openT i
  let ep := a.entry a.pendingT i
  postAll (reclampEvents r eo ++ reclampEvents r ep)
    (s.withAccounts ((({ a with recs := a.recs.set i r }).setEntry a.openT i (reclamp r eo)).setEntry
      a.pendingT i (reclamp r ep)))

/-- A new record at an index popped from the stack (R172). -/
def newAccount (i code injR wdR : Nat) (rest : List Nat) (a : Accounts) : Accounts :=
  appendChain { a with
    stack := rest
    recs := a.recs.set i { AccRec.blank with
      present := true, code := code, injRight := injR, wdRight := wdR } } code i

/-- A SETUP judged by its code (R172). -/
def setupBy (code injR wdR : Nat) (s : State) : State :=
  if code = 0 then post .acctFull 0 s
  else
    match lookup s.accounts code with
    | some i => setupFound i injR wdR s
    | none =>
      match s.accounts.stack with
      | [] => post .acctFull code s
      | i :: rest => s.withAccounts (newAccount i code injR wdR rest s.accounts)

/-- The index of a code that is not 0 and that lookup finds. -/
def shipperIndex (a : Accounts) (code : Nat) : Option Nat :=
  if code = 0 then none else lookup a code

/-- A BALANCE (R174). -/
def balanceBy (code : Nat) (amount : Int) (s : State) : State :=
  match shipperIndex s.accounts code with
  | none => post .balanceRefused code s
  | some i =>
    s.withAccounts { s.accounts with
      recs := s.accounts.recs.set i { s.accounts.acc i with opening := amount } }

/-- The three entries of an index (R175). -/
def threeEntries (a : Accounts) (i : Nat) : List Entry := [a.entry .p0 i, a.entry .p1 i, a.entry .p2 i]

/-- The first check of RETIRE after lookup that fails, by its reason (R175). -/
def retireReason (a : Accounts) (i : Nat) : Option Nat :=
  if (threeEntries a i).any (fun e => e.nomination.isSome) then some 2
  else if (threeEntries a i).any hasColumn then some 3
  else if inventory (a.acc i) ≠ 0 then some 4
  else none

/-- The holding account takes the totals of a record that retires (R175). -/
def absorb (r h : AccRec) : AccRec :=
  { h with net := accAdd h.net r.net, fuel := accAdd h.fuel r.fuel,
           offSpec := accAdd h.offSpec r.offSpec }

/-- The curtailed mark of an index cleared in a table (R175). -/
def clearMark (t : TableId) (i : Nat) (a : Accounts) : Accounts :=
  a.setEntry t i { a.entry t i with curtailed := false }

/-- The store after an accepted RETIRE (R175). -/
def retired (i : Nat) (a : Accounts) : Accounts :=
  let r := a.acc i
  let b := unlink a i
  let c := { b with
    recs := (b.recs.set i AccRec.blank).set 0 (absorb r (b.acc 0))
    stack := i :: b.stack }
  clearMark .p2 i (clearMark .p1 i (clearMark .p0 i c))

/-- A RETIRE (R175). -/
def retireBy (code : Nat) (s : State) : State :=
  match shipperIndex s.accounts code with
  | none => post .retireRefused 1 s
  | some i =>
    match retireReason s.accounts i with
    | some reason => post .retireRefused reason s
    | none => s.withAccounts (retired i s.accounts)

/-! ### Nominations (R183) -/

/-- The table a NOMINATE's sequence names, by its distance from the OPEN sequence (R177, R183). -/
def nominateTable (a : Accounts) (seq : Word16) : Option TableId :=
  if seqDistance seq a.openSeq = 0 then some a.openT
  else if seqDistance seq a.openSeq = 1 then some a.pendingT
  else none

/-- A NOMINATE (R183). -/
def nominateBy (seq : Word16) (code : Nat) (rate : Int) (s : State) : State :=
  if s.accounts.sync = .unsynced then post .nomRefused 1 s
  else
    match shipperIndex s.accounts code with
    | none => post .nomRefused 2 s
    | some i =>
      match nominateTable s.accounts seq with
      | none => post .nomRefused 3 s
      | some t =>
        let r := s.accounts.acc i
        postAll (curtailEvents r rate)
          (s.withAccounts (s.accounts.setEntry t i (placed r rate (s.accounts.entry t i))))

/-! ### The site target and the digest (R185, R186) -/

/-- The nomination of an entry, 0 where it is absent. -/
def nominated (e : Entry) : Int := e.nomination.getD 0

/-- The site target T (R185). -/
def siteTarget (a : Accounts) : Int :=
  if a.sync = .unsynced then 0 else (a.openTable.map nominated).sum

/-- The five bytes of a nomination in the digest (R186). -/
def digestBytes (code : Nat) (n : Int) : List Byte := bytesOf 2 code ++ putS 3 n

/-- What one entry contributes to the digest (R186). -/
def digestPart (r : AccRec) (e : Entry) : Word16 :=
  match e.nomination with
  | none => 0
  | some n => crc16 (digestBytes r.code n)

/-- The nomination digest (R186). -/
def digest (a : Accounts) : Word16 := (List.zipWith digestPart a.recs a.openTable).sum

/-! ### Rotation (R180, R181) -/

/-- An entry qualifies for the closing report; entry 0 always does (R182). -/
def qualifies (t : List Entry) (i : Nat) : Bool :=
  let e := t.getD i Entry.blank
  decide (i = 0) || e.nomination.isSome || hasColumn e

/-- The qualifying indices from one on, ascending (R182). -/
def qualifyingFrom (t : List Entry) (i : Nat) : List Nat :=
  (List.range 49).filter (fun j => decide (i ≤ j) && qualifies t j)

/-- The number of closing entries not yet admitted, the one in hand included (R180). -/
def unsentEntries (a : Accounts) : Nat :=
  match a.cursor with
  | none => 0
  | some i => (qualifyingFrom (a.table a.closedT) i).length

/-- Step 1 of a rotation (R180): the closing report cut short. -/
def cutShort (a : Accounts) : Accounts :=
  if a.reporting then
    { a.setTable a.closedT Entry.blankTable with reporting := false, cursor := none }
  else a

/-- Whether an entry is carried forward (R181): a present nomination that is not 0, into an entry of a
shipper account with none. -/
def carries (r : AccRec) (old new : Entry) : Bool :=
  isShipper r && !new.nomination.isSome && decide (nominated old ≠ 0)

/-- An entry of the new OPEN table after carry-forward (R181). -/
def carryEntry (r : AccRec) (old new : Entry) : Entry :=
  if carries r old new then
    { new with
      nomination := some (clampRate r (nominated old))
      curtailed := old.curtailed || decide (clampRate r (nominated old) ≠ nominated old) }
  else new

/-- The events of one carry-forward (R173, R181). -/
def carryEvents (r : AccRec) (old new : Entry) : List (EventKind × Nat) :=
  if carries r old new then curtailEvents r (nominated old) else []

/-- Carry-forward over a whole table, in index order (R181, log 22). -/
def carryTable : List AccRec → List Entry → List Entry → List Entry
  | r :: rs, o :: os, n :: ns => carryEntry r o n :: carryTable rs os ns
  | _, _, ns => ns

/-- The events of carry-forward, in index order (R181, log 22). -/
def carryTableEvents : List AccRec → List Entry → List Entry → List (EventKind × Nat)
  | r :: rs, o :: os, n :: ns => carryEvents r o n ++ carryTableEvents rs os ns
  | _, _, _ => []

/-- The store after a rotation to a new OPEN sequence (R180 steps 1, 2, 3 and 5). -/
def rotated (newSeq : Word16) (a : Accounts) : Accounts :=
  let b := cutShort a
  { b.setTable b.pendingT (carryTable b.recs (b.table b.openT) (b.table b.pendingT)) with
    openT := b.pendingT
    closedT := b.openT
    pendingT := b.closedT
    reporting := true
    closedSeq := b.openSeq
    openSeq := newSeq
    cursor := some 0 }

/-- The events of a rotation, in order (R180): CLOSE_LOST, the carry-forward's, PERIOD_ROTATE. -/
def rotationEvents (newSeq : Word16) (a : Accounts) : List (EventKind × Nat) :=
  let b := cutShort a
  (if a.reporting then [(.closeLost, unsentEntries a)] else []) ++
  carryTableEvents b.recs (b.table b.openT) (b.table b.pendingT) ++
  [(.periodRotate, newSeq.toNat)]

/-- A rotation made in one act (R180). -/
def rotate (newSeq : Word16) (s : State) : State :=
  postAll (rotationEvents newSeq s.accounts) (s.withAccounts (rotated newSeq s.accounts))

/-! ### Period sync (R177, R178, R179) -/

/-- The period length, seconds. -/
def periodSeconds (img : Image) : Nat := img.periodMinutes * 60

/-- The period timer realigned with a MARK (R177): 0 ms is a timer that expires at once. -/
def realigned (img : Image) (elapsed : Nat) (a : Accounts) : Accounts :=
  { a with grace := .stopped, period := .ofSeconds (periodSeconds img - elapsed) }

/-- A MARK has set the sync state to MARKED and realigned the timer (R178). -/
def marked (elapsed : Nat) (s : State) : State :=
  s.withAccounts { realigned s.cfg elapsed s.accounts with sync := .marked }

/-- A MARK by the sync state and the distance of its sequence (R178). -/
def markBy (seq : Word16) (elapsed : Nat) (s : State) : State :=
  if s.accounts.sync = .unsynced then
    marked elapsed (s.withAccounts { s.accounts with openSeq := seq })
  else
    let distance := seqDistance seq s.accounts.openSeq
    if distance = 0 then marked elapsed s
    else if distance = 1 then marked elapsed (rotate seq s)
    else if distance ≤ 32767 then marked elapsed (post .periodSkip (distance - 1) (rotate seq s))
    else s

/-- The period timer's expiry starts the grace timer (R179). -/
def periodExpiry (s : State) : State :=
  whenActive s fun s =>
    if s.accounts.period.isRunning then
      s.withAccounts { s.accounts with period := .stopped, grace := .ofSeconds s.cfg.grace }
    else s

/-- An own-clock rotation (R179). -/
def ownClockRotation (s : State) : State :=
  let newSeq := s.accounts.openSeq + 1
  let t := rotate newSeq s
  post .periodOwnClock newSeq.toNat (t.withAccounts { t.accounts with
    sync := .ownClock
    grace := .stopped
    period := .ofSeconds (periodSeconds s.cfg - s.cfg.grace) })

/-- The grace timer's expiry (R179). -/
def graceExpiry (s : State) : State :=
  whenActive s fun s => if s.accounts.grace.isRunning then ownClockRotation s else s

/-! ### The closing report (R182) -/

/-- The closing REPORT of an index (R182). -/
def closingReport (a : Accounts) (i : Nat) : List Byte :=
  closingPayload a.closedSeq (a.acc i).code (a.entry a.closedT i)

/-- The store after the REPORT of an index has been admitted (R182): the next qualifying index, or the
CLOSED table cleared and CLEAN with the cursor inactive. -/
def cursorMoved (i : Nat) (a : Accounts) : Accounts :=
  match qualifyingFrom (a.table a.closedT) (i + 1) with
  | j :: _ => { a with cursor := some j }
  | [] => { a.setTable a.closedT Entry.blankTable with reporting := false, cursor := none }

/-- The cursor's REPORT is admitted, where the queue has room and it is the cursor's turn (R33, R34,
R182). -/
def admitClosing (s : State) : State :=
  whenActive s fun s =>
    match s.accounts.cursor with
    | none => s
    | some i =>
      if mayAdmit s.link = true ∧ ¬(s.events.queue ≠ [] ∧ s.link.mark = .cursor) then
        (s.withLink { enqueueFrame .report (closingReport s.accounts i) s.link with
          mark := .cursor }).withAccounts (cursorMoved i s.accounts)
      else s

/-! ### Allocation and fuel (R187 to R190) -/

/-- The part of an increment that a nomination takes (R188). -/
def part (v t : Int) (e : Entry) : Int := if t = 0 then 0 else (v * nominated e).tdiv t

/-- The parts of all 49 accounts: the shippers' by R188, the remainder the holding account's. -/
def parts (v t : Int) : List Entry → List Int
  | [] => []
  | _ :: shippers =>
    let ps := shippers.map (part v t)
    (v - ps.sum) :: ps

/-- The off-spec litres of a part: its magnitude where the part is withdrawn and the take is off-spec
(R189). -/
def offSpecPart (wet : Bool) (x : Int) : Int := if wet = true ∧ x < 0 then -x else 0

/-- A record takes its part (R188, R189). -/
def creditRec (wet : Bool) (x : Int) (r : AccRec) : AccRec :=
  { r with net := accAdd r.net x, offSpec := accAdd r.offSpec (offSpecPart wet x) }

/-- An OPEN entry takes its part (R188, R189). -/
def creditEntry (wet : Bool) (x : Int) (e : Entry) : Entry :=
  { e with
    injected := accAdd e.injected (if 0 < x then x else 0)
    withdrawn := accAdd e.withdrawn (if x < 0 then -x else 0)
    offSpec := accAdd e.offSpec (offSpecPart wet x) }

/-- The store after a metered increment, with the off-spec flag as it stands (R188, R189). -/
def allocated (v : Int) (offSpec : Bool) (a : Accounts) : Accounts :=
  let wet := offSpec && decide (v < 0)
  let ps := parts v (siteTarget a) a.openTable
  { a.setTable a.openT (List.zipWith (creditEntry wet) ps a.openTable) with
    recs := List.zipWith (creditRec wet) ps a.recs }

/-- The positive nomination of an entry, 0 where there is none (R190). -/
def injecting (e : Entry) : Int := max 0 (nominated e)

/-- The charge of a fuel increment to one shipper (R190). -/
def charge (f total : Int) (e : Entry) : Int := if total = 0 then 0 else (f * injecting e).tdiv total

/-- The charges of all 49 accounts, the remainder the holding account's (R190). -/
def charges (f total : Int) : List Entry → List Int
  | [] => []
  | _ :: shippers =>
    let cs := shippers.map (charge f total)
    (f - cs.sum) :: cs

/-- ΣN⁺, the sum of the present positive OPEN nominations (R190). -/
def positiveSum (a : Accounts) : Int := (a.openTable.map injecting).sum

/-- The store after a fuel increment (R190). -/
def charged (f : Nat) (a : Accounts) : Accounts :=
  let cs := charges f (positiveSum a) a.openTable
  { a.setTable a.openT
      (List.zipWith (fun c (e : Entry) => { e with fuel := accAdd e.fuel c }) cs a.openTable) with
    recs := List.zipWith (fun c (r : AccRec) => { r with fuel := accAdd r.fuel c }) cs a.recs }

/-- The oldest metered increment is taken (R187, R188). -/
def takeMetered (s : State) : State :=
  whenActive s fun s =>
    match s.accounts.metered with
    | [] => s
    | v :: rest => s.withAccounts (allocated v s.dryer.offSpec { s.accounts with metered := rest })

/-- The oldest fuel increment is taken (R187, R190). -/
def takeFuel (s : State) : State :=
  whenActive s fun s =>
    match s.accounts.fuel with
    | [] => s
    | f :: rest => s.withAccounts (charged f { s.accounts with fuel := rest })

/-- Every metered increment that waits is taken, oldest first (R187). -/
def settleMetered (s : State) : State :=
  s.withAccounts (s.accounts.metered.foldl (fun a v => allocated v s.dryer.offSpec a)
    { s.accounts with metered := [] })

/-- Every fuel increment that waits is taken, oldest first (R187). -/
def settleFuel (s : State) : State :=
  s.withAccounts (s.accounts.fuel.foldl (fun a f => charged f a) { s.accounts with fuel := [] })

/-! ### The frames (R29) -/

/-- The Account Store takes its oldest frame, a MARK (R178). -/
def takeMark (s : State) : State :=
  takeBy .accountStore s fun f =>
    match f.body with
    | .mark seq elapsed => some (markBy seq elapsed)
    | _ => none

/-- The Account Store takes its oldest frame, a NOMINATE (R183). -/
def takeNominate (s : State) : State :=
  takeBy .accountStore s fun f =>
    match f.body with
    | .nominate seq code rate => some (nominateBy seq code rate)
    | _ => none

/-- The Account Store takes its oldest frame, a SETUP (R172). -/
def takeSetup (s : State) : State :=
  takeBy .accountStore s fun f =>
    match f.body with
    | .setup code injR wdR => some (setupBy code injR wdR)
    | _ => none

/-- The Account Store takes its oldest frame, a BALANCE (R174). -/
def takeBalance (s : State) : State :=
  takeBy .accountStore s fun f =>
    match f.body with
    | .balance code amount => some (balanceBy code amount)
    | _ => none

/-- The Account Store takes its oldest frame, a RETIRE (R175). -/
def takeRetire (s : State) : State :=
  takeBy .accountStore s fun f =>
    match f.body with
    | .retire code => some (retireBy code)
    | _ => none

/-! ### The commands -/

/-- MARK (R178). -/
def execMark (s : State) : Host.Outcome State Fault Refusal := .next (takeMark s)

/-- NOMINATE (R183). -/
def execNominate (s : State) : Host.Outcome State Fault Refusal := .next (takeNominate s)

/-- SETUP (R172). -/
def execSetup (s : State) : Host.Outcome State Fault Refusal := .next (takeSetup s)

/-- BALANCE (R174). -/
def execBalance (s : State) : Host.Outcome State Fault Refusal := .next (takeBalance s)

/-- RETIRE (R175). -/
def execRetire (s : State) : Host.Outcome State Fault Refusal := .next (takeRetire s)

/-- CLOSING_REPORT_ADMISSION (R182). -/
def execClosingReportAdmission (s : State) : Host.Outcome State Fault Refusal := .next (admitClosing s)

/-- ACCOUNT_INCREMENT_TAKE (R188). -/
def execAccountIncrementTake (s : State) : Host.Outcome State Fault Refusal := .next (takeMetered s)

/-- FUEL_INCREMENT_TAKE (R190). -/
def execFuelIncrementTake (s : State) : Host.Outcome State Fault Refusal := .next (takeFuel s)

/-- PERIOD_TIMER_EXPIRY (R179). -/
def execPeriodTimerExpiry (s : State) : Host.Outcome State Fault Refusal := .next (periodExpiry s)

/-- GRACE_TIMER_EXPIRY (R179). -/
def execGraceTimerExpiry (s : State) : Host.Outcome State Fault Refusal := .next (graceExpiry s)

end Sys2Proof.Machine
end

