-- ==== Sys2Proof/Machine/Compressor.lean ====
section
/-! DEFINITION. The Compressor Duty Unit (R80 to R102): the unit states, trips and clears, lead choice,
the second-unit start and the lag stop, the train stop. -/

namespace Sys2Proof.Machine

/-! ### Records, lines and notices -/

/-- A unit's record. -/
def State.unit (s : State) (u : UnitId) : UnitRec := s.compressor.unit u

/-- A unit's record replaced. -/
def State.setUnit (s : State) (u : UnitId) (r : UnitRec) : State :=
  s.withCompressor (s.compressor.setUnit u r)

/-- The role of a unit's run feedback. -/
def runFbRole : UnitId → Role
  | .one => .u1RunFb
  | .two => .u2RunFb

/-- The role of a unit's fault input. -/
def faultRole : UnitId → Role
  | .one => .u1FaultIn
  | .two => .u2FaultIn

/-- The request of a unit's run command (R82). -/
def setRunCmd (u : UnitId) (b : Bool) (s : State) : State :=
  s.setRequests fun d =>
    match u with
    | .one => { d with u1Run := b }
    | .two => { d with u2Run := b }

/-- A notice to the Direction Controller that a unit entered or left RUNNING, with the C_run after the
change (R94). -/
def notify (entered : Bool) (s : State) : State :=
  s.withInbox { s.inbox with notices := s.inbox.notices ++ [{ entered := entered, cRun := cRun s }] }

/-- A timer started at `n` seconds, with its mark clear; 0 s sets the mark at once (R81). -/
def markTimer (n : Nat) : Timer × Bool := if n = 0 then (.stopped, true) else (.ofSeconds n, false)

/-! ### The unit states (R82 to R89) -/

/-- A unit enters RUNNING (R84, R85): run clock and minimum run timer started, the lag mark set where
the other unit is RUNNING, the failure count 0. -/
def enterRunning (u : UnitId) (s : State) : State :=
  let r := s.unit u
  let mr := markTimer s.cfg.compressor.minRun
  notify true (s.setUnit u { r with
    state := .running
    fails := 0
    stateTimer := .stopped
    runClock := .running Config.runClockPeriod
    minRun := mr.1
    minRunMark := mr.2
    lag := decide ((s.unit (otherUnit u)).state = .running) })

/-- A unit in STARTING or RUNNING enters OFF, COOLDOWN or LOCKOUT (R82, R84 to R87, R96): the run command
is released and the minimum stop timer starts; on leaving RUNNING both lag marks clear and a notice is
delivered; while the lineup request is active the unit is passed over. -/
def leaveTo (u : UnitId) (dest : UnitState) (s : State) : State :=
  let r := s.unit u
  let ms := markTimer s.cfg.compressor.minStop
  let wasRunning := decide (r.state = .running)
  let s1 := setRunCmd u false (s.setUnit u { r with
    state := dest
    stateTimer := if dest = .cooldown then .ofSeconds s.cfg.compressor.cooldown else .stopped
    runClock := .stopped
    minRun := .stopped
    minStop := ms.1
    minStopMark := ms.2
    lag := false
    passedOver := r.passedOver || s.compressor.lineup })
  if wasRunning then
    notify false (s1.setUnit (otherUnit u) { s1.unit (otherUnit u) with lag := false })
  else s1

/-- A unit is eligible to start (R83). -/
def eligible (s : State) (u : UnitId) : Bool :=
  decide ((s.unit u).state = .off) && (s.unit u).minStopMark && !s.level (faultRole u)

/-- A start request to an eligible unit (R83): STARTING, and RUNNING at once where the run feedback is
already asserted. -/
def startRequest (u : UnitId) (s : State) : State :=
  let s1 := setRunCmd u true (s.setUnit u { s.unit u with
    state := .starting, stateTimer := .ofSeconds s.cfg.compressor.startTimeout })
  if s1.level (runFbRole u) then enterRunning u s1 else s1

/-- A stop request (R84, R86): STARTING to OFF, RUNNING to COOLDOWN, no effect in any other state. -/
def stopRequest (u : UnitId) (s : State) : State :=
  match (s.unit u).state with
  | .starting => leaveTo u .off s
  | .running => leaveTo u .cooldown s
  | .off => s
  | .cooldown => s
  | .lockout => s

/-- A trip (R87): cause 1 run feedback lost, 2 fault input. -/
def tripUnit (u : UnitId) (cause : Nat) (s : State) : State :=
  let s1 := post .unitTrip (unitNumber u + 256 * cause) s
  match s.cfg.compressor.faultMode with
  | .latched => post .unitLockout (unitNumber u + 256 * 2) (leaveTo u .lockout s1)
  | .report => leaveTo u .off s1

/-! ### The train (R95 to R100) -/

/-- A unit is STARTING or RUNNING. -/
def onDuty (st : UnitState) : Bool := decide (st = .starting ∨ st = .running)

/-- Of two eligible units the one with fewer run seconds, unit 1 on a tie; else the one there is
(R96, R98). -/
def choose (c : Compressor) (one two : Bool) : Option UnitId :=
  if one && two then (if c.u2.runSeconds < c.u1.runSeconds then some .two else some .one)
  else if one then some .one
  else if two then some .two
  else none

/-- Lead choice (R96): while the lineup request is active and no unit is STARTING or RUNNING. -/
def leadChoice (s : State) : State :=
  if s.compressor.lineup = true ∧ unitsThat s.compressor onDuty = 0 then
    match choose s.compressor (eligible s .one && !s.compressor.u1.passedOver)
        (eligible s .two && !s.compressor.u2.passedOver) with
    | some u => startRequest u s
    | none => s
  else s

/-- A dwell timer and its complete mark at a judgement (R98, R99). -/
def judgeDwell (cond : Bool) (dwell : Nat) (t : Timer) (mark : Bool) : Timer × Bool :=
  if cond then
    (if t.isRunning = false ∧ mark = false then .ofSeconds dwell else t, mark)
  else (.stopped, false)

/-- The start condition (R98): P above floor(C_run × start threshold / 64). -/
def startCondition (s : State) : Bool :=
  decide (cRun s * s.cfg.compressor.startThreshold / 64 < s.share.lastP)

/-- The stop condition (R99): two units RUNNING and P below floor(unit capacity × stop threshold / 64). -/
def stopCondition (s : State) : Bool :=
  decide (s.compressor.u1.state = .running ∧ s.compressor.u2.state = .running ∧
    s.share.lastP < unitCapacity s * s.cfg.compressor.stopThreshold / 64)

/-- The lag unit (R99). -/
def lagUnit (c : Compressor) : Option UnitId :=
  if c.u1.lag then some .one else if c.u2.lag then some .two else none

/-- The unit a second-unit start picks: with no unit STARTING and at least one eligible (R98). -/
def secondStart (s : State) : Option UnitId :=
  if unitsThat s.compressor (fun x => decide (x = .starting)) = 0 then
    choose s.compressor (eligible s .one) (eligible s .two)
  else none

/-- The unit a lag stop picks: the lag unit with its minimum run mark set (R99). -/
def lagStop (s : State) : Option UnitId :=
  match lagUnit s.compressor with
  | none => none
  | some u => if (s.unit u).minRunMark then some u else none

/-- One judgement of the second-unit start and the lag stop from one reading (R97, R98, R99). -/
def judgeOnce (s : State) : State :=
  let cs := startCondition s
  let ct := stopCondition s
  let ds := judgeDwell cs s.cfg.compressor.startDwell s.compressor.startDwell s.compressor.startMark
  let dt := judgeDwell ct s.cfg.compressor.stopDwell s.compressor.stopDwell s.compressor.stopMark
  let start := if cs = true ∧ ds.2 = true then secondStart s else none
  let stop := if ct = true ∧ dt.2 = true then lagStop s else none
  let s1 := s.withCompressor { s.compressor with
    startDwell := ds.1, startMark := ds.2 && !start.isSome
    stopDwell := dt.1, stopMark := dt.2 && !stop.isSome }
  let s2 :=
    match start with
    | some u => startRequest u s1
    | none => s1
  match stop with
  | some u => stopRequest u s2
  | none => s2

/-- The states of both units. -/
def unitStates (c : Compressor) : UnitState × UnitState := (c.u1.state, c.u2.state)

/-- The judgement of R97 while the direction state is INJECT; a change of unit state that it makes is a
judgement point of its own (log 20). -/
def judgeDuty (s : State) : State :=
  if s.compressor.trainDir = .inject then
    let s1 := judgeOnce s
    if unitStates s1.compressor = unitStates s.compressor then s1 else judgeOnce s1
  else s

/-- A judgement point of the train: a change of unit state or eligibility (R96, R97). -/
def judgeTrain (s : State) : State := judgeDuty (leadChoice s)

/-- The lineup request inactive and both passed-over marks clear (R95, R100). -/
def endLineup (s : State) : State :=
  s.withCompressor { s.compressor with
    lineup := false
    u1 := { s.compressor.u1 with passedOver := false }
    u2 := { s.compressor.u2 with passedOver := false } }

/-- Both dwell timers stopped and their complete marks clear (R95, R100). -/
def stopDwells (s : State) : State :=
  s.withCompressor { s.compressor with
    startDwell := .stopped, startMark := false, stopDwell := .stopped, stopMark := false }

/-- The train stop (R100): the stop requests one after the other, unit 1 first. -/
def trainStop (s : State) : State :=
  stopDwells (stopRequest .two (stopRequest .one (endLineup s)))

/-- A STARTING unit gets a stop request (R95). -/
def stopIfStarting (u : UnitId) (s : State) : State :=
  if (s.unit u).state = .starting then stopRequest u s else s

/-- RUNDOWN, LINEUP_WD or WITHDRAW: an active lineup request ends and a STARTING unit is stopped; the
dwells are stopped (R95). -/
def dropLineup (s : State) : State :=
  stopDwells (if s.compressor.lineup then
      stopIfStarting .two (stopIfStarting .one (endLineup s))
    else s)

/-- A lineup to injection begins (R95, R96). -/
def beginLineup (s : State) : State :=
  let s1 := endLineup s
  leadChoice (s1.withCompressor { s1.compressor with lineup := true })

/-- The Compressor Duty Unit takes a change of direction state (R95). -/
def takeDirChange (st : DirState) (s : State) : State :=
  let s1 := s.withCompressor { s.compressor with trainDir := st }
  match st with
  | .lineupInj => beginLineup s1
  | .inject => judgeDuty (endLineup s1)
  | .rundown => dropLineup s1
  | .lineupWd => dropLineup s1
  | .withdraw => dropLineup s1
  | .idle => trainStop s1
  | .tripped => trainStop s1

/-- The oldest change of direction state that waits is taken (R95). -/
def trainDirectionChange (s : State) : State :=
  whenActive s fun s =>
    match s.inbox.dirChanges with
    | [] => s
    | (st, _) :: rest => takeDirChange st (s.withInbox { s.inbox with dirChanges := rest })

/-! ### Timers, feedbacks and faults -/

/-- The start timeout of a STARTING unit (R84). -/
def startTimeout (u : UnitId) (s : State) : State :=
  whenActive s fun s =>
    let r := s.unit u
    if r.state = .starting ∧ r.stateTimer.isRunning = true then
      let s1 := post .unitStartFail (unitNumber u) (s.setUnit u { r with fails := r.fails + 1 })
      judgeTrain (
        if r.fails + 1 < 2 then leaveTo u .off s1
        else post .unitLockout (unitNumber u + 256) (leaveTo u .lockout s1))
    else s

/-- A run feedback assertion acts in STARTING (R84, R91). -/
def feedbackOn (u : UnitId) (s : State) : State :=
  takeLine (runFbRole u) true s fun s =>
    if (s.unit u).state = .starting then judgeTrain (enterRunning u s) else s

/-- A run feedback release trips a RUNNING unit, cause 1 (R87, R91). -/
def feedbackOff (u : UnitId) (s : State) : State :=
  takeLine (runFbRole u) false s fun s =>
    if (s.unit u).state = .running then judgeTrain (tripUnit u 1 s) else s

/-- An OFF unit whose minimum stop mark is set: its fault input alone decides its eligibility (R83,
R91). -/
def offAndRested (s : State) (u : UnitId) : Bool :=
  decide ((s.unit u).state = .off) && (s.unit u).minStopMark

/-- A fault input assertion trips a STARTING or RUNNING unit, cause 2; in OFF it changes the unit's
eligibility (R87, R91). -/
def faultOn (u : UnitId) (s : State) : State :=
  takeLine (faultRole u) true s fun s =>
    if onDuty (s.unit u).state then judgeTrain (tripUnit u 2 s)
    else if offAndRested s u then judgeTrain s
    else s

/-- A fault input release may make an OFF unit eligible (R91). -/
def faultOff (u : UnitId) (s : State) : State :=
  takeLine (faultRole u) false s fun s => if offAndRested s u then judgeTrain s else s

/-- The run clock adds one second (R85). -/
def runClock (u : UnitId) (s : State) : State :=
  whenActive s fun s =>
    let r := s.unit u
    if r.runClock.isRunning then s.setUnit u { r with runSeconds := r.runSeconds + 1 } else s

/-- The minimum run timer sets its mark (R85), a judgement point (R97). -/
def minRunExpiry (u : UnitId) (s : State) : State :=
  whenActive s fun s =>
    let r := s.unit u
    if r.minRun.isRunning then judgeDuty (s.setUnit u { r with minRun := .stopped, minRunMark := true })
    else s

/-- The minimum stop timer sets its mark (R89); where that makes the unit eligible it is a judgement
point (R96, R98). -/
def minStopExpiry (u : UnitId) (s : State) : State :=
  whenActive s fun s =>
    let r := s.unit u
    if r.minStop.isRunning then
      let s1 := s.setUnit u { r with minStop := .stopped, minStopMark := true }
      if eligible s1 u then judgeTrain s1 else s1
    else s

/-- The cooldown timer takes a unit from COOLDOWN to OFF (R88). -/
def cooldownEnd (u : UnitId) (s : State) : State :=
  whenActive s fun s =>
    let r := s.unit u
    if r.state = .cooldown ∧ r.stateTimer.isRunning = true then
      judgeTrain (s.setUnit u { r with state := .off, stateTimer := .stopped })
    else s

/-- The start dwell's complete mark is set, a judgement point (R97, R98). -/
def startDwellEnd (s : State) : State :=
  whenActive s fun s =>
    if s.compressor.startDwell.isRunning then
      judgeDuty (s.withCompressor { s.compressor with startDwell := .stopped, startMark := true })
    else s

/-- The stop dwell's complete mark is set, a judgement point (R97, R99). -/
def stopDwellEnd (s : State) : State :=
  whenActive s fun s =>
    if s.compressor.stopDwell.isRunning then
      judgeDuty (s.withCompressor { s.compressor with stopDwell := .stopped, stopMark := true })
    else s

/-! ### CLEAR (R90) -/

/-- The CLEAR target code of a unit (R43). -/
def unitTargetCode (u : UnitId) : Nat := unitNumber u + 1

/-- A CLEAR of a unit (R90, R102). -/
def clearUnitBy (u : UnitId) (s : State) : State :=
  if (s.unit u).state = .lockout then
    if s.level (faultRole u) then post .clearRefused (unitTargetCode u + 256 * 2) s
    else judgeTrain (s.setUnit u { s.unit u with state := .off, fails := 0 })
  else post .clearRefused (unitTargetCode u + 256) s

/-- The Compressor Duty Unit takes its oldest CLEAR (R29, R90). -/
def takeClearUnit (s : State) : State :=
  takeBy .compressorDuty s fun f =>
    match f.body with
    | .clear (.unit u) => some (clearUnitBy u)
    | _ => none

/-! ### The commands -/

/-- START_TIMEOUT_EXPIRY (R84). -/
def execStartTimeoutExpiry (u : UnitId) (s : State) : Host.Outcome State Fault Refusal :=
  .next (startTimeout u s)

/-- RUN_FEEDBACK_ASSERTION (R84). -/
def execRunFeedbackAssertion (u : UnitId) (s : State) : Host.Outcome State Fault Refusal :=
  .next (feedbackOn u s)

/-- RUN_FEEDBACK_RELEASE (R87). -/
def execRunFeedbackRelease (u : UnitId) (s : State) : Host.Outcome State Fault Refusal :=
  .next (feedbackOff u s)

/-- FAULT_INPUT_ASSERTION (R87). -/
def execFaultInputAssertion (u : UnitId) (s : State) : Host.Outcome State Fault Refusal :=
  .next (faultOn u s)

/-- FAULT_INPUT_RELEASE (R91). -/
def execFaultInputRelease (u : UnitId) (s : State) : Host.Outcome State Fault Refusal :=
  .next (faultOff u s)

/-- RUN_CLOCK_EXPIRY (R85). -/
def execRunClockExpiry (u : UnitId) (s : State) : Host.Outcome State Fault Refusal :=
  .next (runClock u s)

/-- MINIMUM_RUN_EXPIRY (R85). -/
def execMinimumRunExpiry (u : UnitId) (s : State) : Host.Outcome State Fault Refusal :=
  .next (minRunExpiry u s)

/-- MINIMUM_STOP_EXPIRY (R89). -/
def execMinimumStopExpiry (u : UnitId) (s : State) : Host.Outcome State Fault Refusal :=
  .next (minStopExpiry u s)

/-- COOLDOWN_EXPIRY (R88). -/
def execCooldownExpiry (u : UnitId) (s : State) : Host.Outcome State Fault Refusal :=
  .next (cooldownEnd u s)

/-- START_DWELL_EXPIRY (R98). -/
def execStartDwellExpiry (s : State) : Host.Outcome State Fault Refusal := .next (startDwellEnd s)

/-- STOP_DWELL_EXPIRY (R99). -/
def execStopDwellExpiry (s : State) : Host.Outcome State Fault Refusal := .next (stopDwellEnd s)

/-- TRAIN_DIRECTION_CHANGE (R95). -/
def execTrainDirectionChange (s : State) : Host.Outcome State Fault Refusal :=
  .next (trainDirectionChange s)

/-- CLEAR_UNIT (R90). -/
def execClearUnit (s : State) : Host.Outcome State Fault Refusal := .next (takeClearUnit s)

end Sys2Proof.Machine
end

