-- ==== Sys2Proof/Machine/Dryer.lean ====
section
/-! DEFINITION. The Dryer Unit (R103 to R122): loading, switching, regeneration, the dew judgement and the
off-spec flag, D_avail. -/

namespace Sys2Proof.Machine

/-! ### Records and requests (R105) -/

/-- The three command requests that the towers' states and the heater's owner call for (R105). -/
def dryerRequests (d : Dryer) (q : DriveReqs) : DriveReqs :=
  { q with
    twrA := decide (d.a.state = .onLine)
    twrB := decide (d.b.state = .onLine)
    heater := d.heater.isSome }

/-- The Dryer Unit's record replaced and its requests set in the same act (R105). -/
def putDryer (d : Dryer) (s : State) : State := (s.withDryer d).setRequests (dryerRequests d)

/-- The tower that is ON_LINE (R105: exactly one). -/
def onLineTower (d : Dryer) : Tower := if d.a.state = .onLine then .a else .b

/-- The record of the ON_LINE tower. -/
def onLineRec (d : Dryer) : TowerRec := d.tower (onLineTower d)

/-- The record of the other tower. -/
def offLineRec (d : Dryer) : TowerRec := d.tower (otherTower (onLineTower d))

/-- A tower takes the heater and becomes HEATING (R109). -/
def startHeating (heatTime : Nat) (t : Tower) (d : Dryer) : Dryer :=
  { d.setTower t { d.tower t with state := .heating, regen := .ofMinutes heatTime, halfMark := false } with
    heater := some t }

/-! ### Switching (R107, R108) -/

/-- The load condition: 16 × load ≥ 15 × Lmax × 1000 (R107). -/
def loadDue (c : DryerCfg) (d : Dryer) : Bool :=
  decide ((15 * c.lmax * 1000 : Nat) ≤ 16 * (onLineRec d).load)

/-- A switch is due (R107). -/
def switchDue (c : DryerCfg) (d : Dryer) : Bool := loadDue c d || d.offSpec

/-- The cause of a switch: 1 load, 2 off-spec, 3 both (R108). -/
def switchCause (c : DryerCfg) (d : Dryer) : Nat :=
  (if loadDue c d then 1 else 0) + (if d.offSpec then 2 else 0)

/-- The towers after a switch (R108): the STANDBY tower ON_LINE and empty, the old one HEATING. -/
def switched (c : DryerCfg) (d : Dryer) : Dryer :=
  let old := onLineTower d
  let new := otherTower old
  startHeating c.heatTime old
    (d.setTower new { d.tower new with state := .onLine, load := 0, residue := 0, regen := .stopped })

/-- The switch judgement, in RUNNING (R107, R108). -/
def judgeSwitch (s : State) : State :=
  if s.startup.station = .running ∧ switchDue s.cfg.dryer s.dryer = true ∧
      (offLineRec s.dryer).state = .standby then
    post .towerSwitch
      (towerNumber (otherTower (onLineTower s.dryer)) + 256 * switchCause s.cfg.dryer s.dryer)
      (putDryer (switched s.cfg.dryer s.dryer) s)
  else s

/-! ### Regeneration (R109 to R113) -/

/-- The tower in HOLD that takes a free heater (R109). -/
def heldTower (d : Dryer) : Option Tower :=
  if d.a.state = .hold then some .a else if d.b.state = .hold then some .b else none

/-- The heater hand-over, in RUNNING (R109). -/
def handOver (s : State) : State :=
  if s.startup.station = .running ∧ s.dryer.heater = none then
    match heldTower s.dryer with
    | some t => putDryer (startHeating s.cfg.dryer.heatTime t s.dryer) s
    | none => s
  else s

/-- The half-heat check: none, or the cause of a fault (R110). -/
def halfHeatCause (s : State) : Option Nat :=
  if s.cfg.slots.regenT.fitted then
    match s.usable .regenT with
    | none => some 1
    | some v => if v < (s.cfg.dryer.regenTarget : Int) then some 2 else none
  else none

/-- A HEATING tower becomes FAULTED (R110). -/
def faultTower (t : Tower) (cause : Nat) (s : State) : State :=
  handOver (post .towerFault (towerNumber t + 256 * cause)
    (putDryer { s.dryer.setTower t { s.dryer.tower t with state := .faulted, regen := .stopped } with
      heater := none } s))

/-- The half-heat point of a HEATING tower (R110): one check in each heating run. -/
def halfHeat (t : Tower) (s : State) : State :=
  whenActive s fun s =>
    let r := s.dryer.tower t
    if r.state = .heating ∧ r.regen.isRunning = true ∧ r.halfMark = false then
      let s1 := putDryer (s.dryer.setTower t { r with halfMark := true }) s
      match halfHeatCause s with
      | none => s1
      | some cause => faultTower t cause s1
    else s

/-- The end of the heat time (R111). -/
def heatEnd (t : Tower) (s : State) : State :=
  whenActive s fun s =>
    let r := s.dryer.tower t
    if r.state = .heating ∧ r.regen.isRunning = true then
      handOver (putDryer { s.dryer.setTower t { r with
        state := .cooling, regen := .ofMinutes s.cfg.dryer.coolTime, halfMark := false } with
        heater := none } s)
    else s

/-- The end of the cool time (R112). -/
def coolEnd (t : Tower) (s : State) : State :=
  whenActive s fun s =>
    let r := s.dryer.tower t
    if r.state = .cooling ∧ r.regen.isRunning = true then
      judgeSwitch (putDryer (s.dryer.setTower t { r with
        state := .standby, load := 0, residue := 0, regen := .stopped }) s)
    else s

/-- The CLEAR target code of a tower (R43). -/
def towerTargetCode (t : Tower) : Nat := towerNumber t + 3

/-- A CLEAR of a tower (R113). -/
def clearTowerBy (t : Tower) (s : State) : State :=
  if (s.dryer.tower t).state = .faulted then
    handOver (putDryer (s.dryer.setTower t { s.dryer.tower t with state := .hold }) s)
  else post .clearRefused (towerTargetCode t + 256) s

/-- The Dryer Unit takes its oldest CLEAR (R29, R113). -/
def takeClearTower (s : State) : State :=
  takeBy .dryerUnit s fun f =>
    match f.body with
    | .clear (.tower t) => some (clearTowerBy t)
    | _ => none

/-! ### Loading (R106) -/

/-- The direction states in which an increment is loaded (R106). -/
def loads (st : DirState) (remembered : Flow) : Bool :=
  decide (st = .withdraw ∨ (st = .rundown ∧ remembered = .wd))

/-- A tower's record after an increment of `litres` at water content `w` (R106). -/
def loadTower (litres w : Nat) (r : TowerRec) : TowerRec :=
  let u := litres * w + r.residue
  { r with load := acc64 (r.load + (u / 1000 : Nat)), residue := u % 1000 }

/-- The Dryer Unit takes its oldest increment (R106). -/
def takeDryerIncrement (s : State) : State :=
  whenActive s fun s =>
    match s.inbox.dryerIncrements with
    | [] => s
    | v :: rest =>
      let s1 := s.withInbox { s.inbox with dryerIncrements := rest }
      if loads s.direction.state s.direction.remembered then
        let w := curveAt s.cfg.curves.water (s.qty .wellT).value
        judgeSwitch (s1.withDryer (s.dryer.setTower (onLineTower s.dryer)
          (loadTower v.natAbs w (onLineRec s.dryer))))
      else s1

/-! ### The dew judgement (R114, R115) -/

/-- The sides of the band (R114), and the updates that carry no good reading (R115). -/
inductive DewSide where
  | above
  | below
  | band
  | held
  | unusable
deriving DecidableEq, Repr

/-- The side of an update, by the state and value it leaves (R114, R115). -/
def dewSide (c : DryerCfg) (st : QState) (v : Int) : DewSide :=
  match st with
  | .held => .held
  | .none => .unusable
  | .failed => .unusable
  | .good =>
    if c.dewLimit < v then .above
    else if v ≤ c.dewLimit - c.dewHysteresis then .below
    else .band

/-- The two runs after an update (R114, R115). -/
def dewRuns (side : DewSide) (above below : Nat) : Nat × Nat :=
  match side with
  | .above => (heldAt 3 (above + 1), 0)
  | .below => (0, heldAt 3 (below + 1))
  | .band => (0, 0)
  | .held => (0, 0)
  | .unusable => (0, 0)

/-- The off-spec flag after an update with its runs (R114, R115). -/
def dewFlag (side : DewSide) (runs : Nat × Nat) (flag : Bool) : Bool :=
  match side with
  | .above => flag || decide (runs.1 = 3)
  | .below => flag && decide (runs.2 ≠ 3)
  | .band => flag
  | .held => flag
  | .unusable => true

/-- The detail of OFF_SPEC_ON: 1 three readings above the limit, 2 DEW_OUT unusable (R122). -/
def offSpecDetail (side : DewSide) : Nat := if side = .unusable then 2 else 1

/-- One update of DEW_OUT judged (R114, R115): a setting of the flag makes the switch judgement. -/
def judgeDew (st : QState) (v : Int) (s : State) : State :=
  let side := dewSide s.cfg.dryer st v
  let runs := dewRuns side s.dryer.above s.dryer.below
  let flag := dewFlag side runs s.dryer.offSpec
  let s1 := s.withDryer { s.dryer with above := runs.1, below := runs.2, offSpec := flag }
  if s.dryer.offSpec = false ∧ flag = true then judgeSwitch (post .offSpecOn (offSpecDetail side) s1)
  else if s.dryer.offSpec = true ∧ flag = false then post .offSpecOff 0 s1
  else s1

/-- The Dryer Unit takes the oldest update of DEW_OUT (R19, R114). -/
def takeDewUpdate (s : State) : State :=
  whenActive s fun s =>
    match s.inbox.dewUpdates with
    | [] => s
    | (st, v) :: rest => judgeDew st v (s.withInbox { s.inbox with dewUpdates := rest })

/-! ### D_avail (R117) -/

/-- The taper applies (R117, step 2). -/
def taperApplies (c : DryerCfg) (d : Dryer) : Bool :=
  decide ((offLineRec d).state ≠ .standby ∧ (3 * c.lmax * 1000 : Nat) ≤ 4 * (onLineRec d).load)

/-- D_avail (R117). -/
def dAvail (c : DryerCfg) (d : Dryer) : Nat :=
  let tapered :=
    if taperApplies c d then
      (((c.dmax : Int) * ((c.lmax * 1000 : Nat) - (onLineRec d).load)).tdiv (c.lmax * 250 : Nat)).toNat
    else c.dmax
  if d.offSpec then min tapered (c.dmax / 2) else tapered

/-! ### Entry to RUNNING (R120) -/

/-- The Dryer Unit takes the entry to RUNNING: the hand-over, then the switch (R120). -/
def dryerEntry (s : State) : State :=
  whenActive s fun s =>
    if s.inbox.runningToDryer then
      judgeSwitch (handOver (s.withInbox { s.inbox with runningToDryer := false }))
    else s

/-! ### The commands -/

/-- CLEAR_TOWER (R113). -/
def execClearTower (s : State) : Host.Outcome State Fault Refusal := .next (takeClearTower s)

/-- DRYER_INCREMENT_TAKE (R106). -/
def execDryerIncrementTake (s : State) : Host.Outcome State Fault Refusal := .next (takeDryerIncrement s)

/-- HALF_HEAT_POINT (R110). -/
def execHalfHeatPoint (t : Tower) (s : State) : Host.Outcome State Fault Refusal := .next (halfHeat t s)

/-- HEAT_TIME_EXPIRY (R111). -/
def execHeatTimeExpiry (t : Tower) (s : State) : Host.Outcome State Fault Refusal := .next (heatEnd t s)

/-- COOL_TIME_EXPIRY (R112). -/
def execCoolTimeExpiry (t : Tower) (s : State) : Host.Outcome State Fault Refusal := .next (coolEnd t s)

/-- DEW_OUT_UPDATE (R114). -/
def execDewOutUpdate (s : State) : Host.Outcome State Fault Refusal := .next (takeDewUpdate s)

/-- DRYER_RUNNING_ENTRY (R120). -/
def execDryerRunningEntry (s : State) : Host.Outcome State Fault Refusal := .next (dryerEntry s)

end Sys2Proof.Machine
end

