-- ==== Sys2Proof/Machine/Lines.lean ====
section
/-! DEFINITION. The Field Line Unit (R2 to R11): sensed lines and their debounce, drive lines, counted
lines, the demand line, and what each pin does. -/

namespace Sys2Proof.Machine

/-! ### Levels -/

/-- The raw logical level of a line: its pin's electrical level through its polarity (R3). -/
def rawLevel (s : State) (line : Nat) : Bool :=
  match lineCfg? s.cfg line with
  | some c => logical c.polarity (s.lines.lineRec line).pinHigh
  | none => false

/-- A command that names a line acts on it; there is no line outside 1 to 24 (log 23). -/
def onLine (line : Nat) (s : State) (f : State → State) : Host.Outcome State Fault Refusal :=
  if 1 ≤ line ∧ line ≤ 24 then .next (f s) else .fault (.noSuchLine line)

/-- The pin of a line at an electrical level. -/
def setPin (line : Nat) (high : Bool) (s : State) : State :=
  s.withLines (s.lines.setRec line { s.lines.lineRec line with pinHigh := high })

/-! ### Sensed lines (R5, R6) -/

/-- A SENSE line's record takes a change of its pin (R5). -/
def senseRec (debounce : Nat) (p : Polarity) (high : Bool) (r : LineRec) : LineRec :=
  if r.pinHigh = high then r
  else
    { r with
      pinHigh := high
      stability := if logical p high = r.debounced then .stopped else .running debounce }

/-- A change of a SENSE line's level (R5). While no line is sampled only the pin's level changes (R4). -/
def senseLevelChange (line : Nat) (high : Bool) (s : State) : State :=
  if s.active then
    match lineCfg? s.cfg line with
    | none => s
    | some c =>
      if c.mode = .sense then
        s.withLines (s.lines.setRec line
          (senseRec s.cfg.debounce c.polarity high (s.lines.lineRec line)))
      else s
  else setPin line high s

/-- A change of a debounced level is delivered to the owner of the line's role (R6). A SPARE line has no
owner, and no rule acts on a release of CLEAR_IN: both are taken at once, with no effect (log 16). -/
def deliverChange (role : Role) (lvl : Bool) (s : State) : State :=
  if role = .spare ∨ (role = .clearIn ∧ lvl = false) then s
  else s.withInbox { s.inbox with lineChanges := s.inbox.lineChanges ++ [(role, lvl)] }

/-- A stability timer's expiry: the debounced level takes the raw level and the change is delivered
(R5, R6). -/
def stabilityExpiry (line : Nat) (s : State) : State :=
  whenActive s fun s =>
    match lineCfg? s.cfg line with
    | none => s
    | some c =>
      let r := s.lines.lineRec line
      if c.mode = .sense ∧ r.stability.isRunning = true then
        let raw := logical c.polarity r.pinHigh
        let t := s.withLines (s.lines.setRec line { r with debounced := raw, stability := .stopped })
        if raw = r.debounced then t else deliverChange c.role raw t
      else s

/-! ### Counted lines (R9, R10) -/

/-- One pulse (R9). -/
def countUp (r : LineRec) : LineRec :=
  if r.count < Config.countMax then { r with count := r.count + 1 } else { r with overRange := true }

/-- A COUNT line's record takes an edge of its pin: an edge from released to asserted is one pulse, an
edge from asserted to released changes no count (R9). -/
def countRec (p : Polarity) (high : Bool) (r : LineRec) : LineRec :=
  if r.pinHigh = high then r
  else if logical p high then countUp { r with pinHigh := high } else { r with pinHigh := high }

/-- An edge on a COUNT line. While no line is counted only the pin's level changes (R4). -/
def countEdge (line : Nat) (high : Bool) (s : State) : State :=
  if s.active then
    match lineCfg? s.cfg line with
    | none => s
    | some c =>
      if c.mode = .count then
        s.withLines (s.lines.setRec line (countRec c.polarity high (s.lines.lineRec line)))
      else s
  else setPin line high s

/-- The count and the over-range mark of a role's line, taken as one pair, and the lines with both
cleared (R10). -/
def collect (img : Image) (role : Role) (f : FieldLines) : (Nat × Bool) × FieldLines :=
  match lineOf? img role with
  | none => ((0, false), f)
  | some n =>
    let r := f.lineRec n
    ((r.count, r.overRange), f.setRec n { r with count := 0, overRange := false })

/-! ### Drive lines and the demand line (R7, R8) -/

/-- The request of a drive role; a SPARE line's request stays released (R7). -/
def requestOf (d : DriveReqs) (role : Role) : Bool :=
  match role with
  | .whvCmd => d.whv
  | .injvCmd => d.injv
  | .wdvCmd => d.wdv
  | .tripOut => d.tripOut
  | .u1RunCmd => d.u1Run
  | .u2RunCmd => d.u2Run
  | .twrACmd => d.twrA
  | .twrBCmd => d.twrB
  | .heaterCmd => d.heater
  | .meterPulse => false
  | .fuelPulse => false
  | .demandOut => false
  | .whvOpenFb => false
  | .whvClosedFb => false
  | .injvFb => false
  | .wdvFb => false
  | .estopIn => false
  | .clearIn => false
  | .u1RunFb => false
  | .u2RunFb => false
  | .u1FaultIn => false
  | .u2FaultIn => false
  | .spare => false

/-- The applied state of a drive role: the request in LISTENING and RUNNING, released in every other
station state (R4, R7). -/
def appliedState (s : State) (role : Role) : Bool := s.active && requestOf s.lines.requests role

/-- At the start of a period the latest requested duty, limited to 1000, is applied (R8). -/
def applyDuty (s : State) : State :=
  whenActive s fun s => s.withLines { s.lines with appliedDuty := min 1000 s.direction.duty }

/-- What the part does at a pin (R3). -/
inductive PinDrive where
  | input
  | highZ
  | high
  | low
  /-- high for `duty` microseconds from the start of each 1 ms period, low for the rest -/
  | pulseHigh (duty : Nat)
  /-- low for `duty` microseconds from the start of each 1 ms period, high for the rest -/
  | pulseLow (duty : Nat)
deriving DecidableEq, Repr

/-- The electrical level of a driven line (R3): an OD_DRIVE line drives the low level only. -/
def driveLevel (m : LineMode) (p : Polarity) (asserted : Bool) : PinDrive :=
  let wantHigh := logical p asserted
  match m with
  | .odDrive => if wantHigh then .highZ else .low
  | .ppDrive => if wantHigh then .high else .low
  | .pwm => if wantHigh then .high else .low
  | .sense => .input
  | .count => .input

/-- What the part does at the pin of a line in the present station state (R3, R4, R7, R8). In LOADING
and CONFIG_FAULT no line table is in force and every pin is high-impedance. -/
def pinDrive (s : State) (line : Nat) : PinDrive :=
  match s.startup.station with
  | .loading => .highZ
  | .configFault => .highZ
  | .listening => inForce
  | .running => inForce
  | .duplicate => inForce
where
  inForce : PinDrive :=
    match lineCfg? s.cfg line with
    | none => .highZ
    | some c =>
      if c.mode = .pwm then
        if s.active = true ∧ 0 < s.lines.appliedDuty then
          match c.polarity with
          | .activeHigh => .pulseHigh s.lines.appliedDuty
          | .activeLow => .pulseLow s.lines.appliedDuty
        else driveLevel .pwm c.polarity false
      else driveLevel c.mode c.polarity (appliedState s c.role)

/-- The logical level of a line as QUERY LINES gives it (R11). -/
def reportedLevel (s : State) (line : Nat) : Bool :=
  match lineCfg? s.cfg line with
  | none => false
  | some c =>
    match c.mode with
    | .sense => (s.lines.lineRec line).debounced
    | .count => logical c.polarity (s.lines.lineRec line).pinHigh
    | .pwm => decide (0 < s.lines.appliedDuty)
    | .odDrive => appliedState s c.role
    | .ppDrive => appliedState s c.role

/-- The 24 levels in line order (R11). -/
def reportedLevels (s : State) : List Bool := (List.range 24).map (fun i => reportedLevel s (i + 1))

/-! ### Entries to LISTENING and DUPLICATE (R4, R5, R9) -/

/-- A line's record on entry to LISTENING: debounced level released, the stability timer started where a
SENSE line's raw level is asserted, the count 0 (R4, R5). -/
def startLine (debounce : Nat) (c : LineCfg) (r : LineRec) : LineRec :=
  { r with
    debounced := false
    stability :=
      if c.mode = .sense ∧ logical c.polarity r.pinHigh = true then .running debounce else .stopped
    count := 0
    overRange := false }

/-- A line's record on entry to DUPLICATE (R4). -/
def stopLine (r : LineRec) : LineRec :=
  { r with debounced := false, stability := .stopped, count := 0, overRange := false }

/-! ### The commands -/

/-- SENSE_LEVEL_CHANGE (R5). -/
def execSenseLevelChange (line : Nat) (high : Bool) (s : State) : Host.Outcome State Fault Refusal :=
  onLine line s (senseLevelChange line high)

/-- STABILITY_TIMER_EXPIRY (R5, R6). -/
def execStabilityTimerExpiry (line : Nat) (s : State) : Host.Outcome State Fault Refusal :=
  onLine line s (stabilityExpiry line)

/-- COUNT_PULSE (R9). -/
def execCountPulse (line : Nat) (high : Bool) (s : State) : Host.Outcome State Fault Refusal :=
  onLine line s (countEdge line high)

/-- PWM_PERIOD_START (R8). -/
def execPwmPeriodStart (s : State) : Host.Outcome State Fault Refusal := .next (applyDuty s)

end Sys2Proof.Machine
end

