-- ==== Sys2Proof/Machine/Metering.lean ====
section
/-! DEFINITION. The Meter Unit (R63 to R79): the meter interval, the fuel meter, the pressure history, the
cavern limits. -/

namespace Sys2Proof.Machine

/-! ### The meter interval (R65 to R73) -/

/-- The converted volume of one interval in 1/1024 litre (R66). -/
def convert (n lpp p t zc : Nat) : Nat := n * lpp * p * 18200 * 1024 / (t * zc)

/-- The direction of a directed state; none in IDLE and TRIPPED (R67). -/
def directedFlow (st : DirState) (remembered : Flow) : Option Flow :=
  match st with
  | .lineupInj => some .inj
  | .inject => some .inj
  | .lineupWd => some .wd
  | .withdraw => some .wd
  | .rundown => some remembered
  | .idle => none
  | .tripped => none

/-- Litres signed by a direction: positive into the cavern (R67). -/
def signed (f : Flow) (litres : Nat) : Int :=
  match f with
  | .inj => (litres : Int)
  | .wd => -(litres : Int)

/-- The actual flow of an increment, Sm³/h (R70). -/
def flowOf (v : Int) : Int := (v * 36).tdiv 10

/-- What one interval is formed from: the counts and marks collected, the conversion inputs and the
direction state, all read at the expiry (R65). -/
structure IntervalIn where
  n : Nat
  meterOver : Bool
  fuelCount : Nat
  fuelOver : Bool
  p : Nat
  t : Nat
  zc : Nat
  directed : Option Flow
deriving DecidableEq, Repr

/-- The converted volume and the residue carried (R66). -/
def intervalQm (cfg : StationCfg) (i : IntervalIn) (r : Nat) : Nat :=
  convert i.n cfg.lpp i.p i.t i.zc + r

/-- The increment V (R66, R67). -/
def intervalV (cfg : StationCfg) (i : IntervalIn) (m : Meter) : Int :=
  signed (i.directed.getD m.lastSign) (intervalQm cfg i m.residue / 1024)

/-- The fuel increment F (R73). -/
def intervalF (cfg : StationCfg) (i : IntervalIn) : Nat := i.fuelCount * cfg.fuelPerPulse

/-- Flow counted in IDLE or TRIPPED (R68). -/
def unexpectedFlow (i : IntervalIn) : Bool := decide (i.directed = none) && decide (0 < i.n)

/-- The meter and fuel records after an interval (R66 to R70, R73). -/
def intervalMeter (cfg : StationCfg) (i : IntervalIn) (m : Meter) : Meter :=
  let v := intervalV cfg i m
  { m with
    residue := intervalQm cfg i m.residue % 1024
    net := acc64 (m.net + v)
    flow := flowOf v
    lastSign := i.directed.getD m.lastSign
    unexpected := m.unexpected || unexpectedFlow i
    fuelTotal := acc64 (m.fuelTotal + intervalF cfg i) }

/-- The events of an interval: R68, then R69 for the meter line and the fuel line (log 18). -/
def intervalEvents (i : IntervalIn) (m : Meter) : List (EventKind × Nat) :=
  (if unexpectedFlow i = true ∧ m.unexpected = false then [(.meterUnexpected, i.n)] else []) ++
  (if i.meterOver then [(.meterOverrange, 1)] else []) ++
  (if i.fuelOver then [(.meterOverrange, 2)] else [])

/-- The inputs of an interval (R65); metering reads a quantity's value in every state (R19). -/
def intervalInputs (s : State) : IntervalIn :=
  let meterLine := collect s.cfg .meterPulse s.lines
  let fuelLine := collect s.cfg .fuelPulse meterLine.2
  { n := meterLine.1.1, meterOver := meterLine.1.2, fuelCount := fuelLine.1.1, fuelOver := fuelLine.1.2
    p := (s.qty .wellP).value.toNat, t := (s.qty .wellT).value.toNat
    zc := curveAt s.cfg.curves.zc (s.qty .wellP).value
    directed := directedFlow s.direction.state s.direction.remembered }

/-- The field lines with both COUNT lines collected (R10). -/
def collectedLines (s : State) : FieldLines :=
  (collect s.cfg .fuelPulse (collect s.cfg .meterPulse s.lines).2).2

/-- V is offered to the Account Store when it is not 0 and to the Dryer Unit when it is below 0, F to the
Account Store when it is above 0 (R71, R73). -/
def offerIncrements (v : Int) (f : Nat) (s : State) : State :=
  (s.withAccounts { s.accounts with
      metered := s.accounts.metered ++ (if v = 0 then [] else [v])
      fuel := s.accounts.fuel ++ (if f = 0 then [] else [f]) }).withInbox
    { s.inbox with dryerIncrements := s.inbox.dryerIncrements ++ (if v < 0 then [v] else []) }

/-- The increments of one interval are formed and offered (R65 to R73). -/
def formIncrements (s : State) : State :=
  let i := intervalInputs s
  let c := s.cfg.station
  postAll (intervalEvents i s.meter)
    (offerIncrements (intervalV c i s.meter) (intervalF c i)
      ((s.withLines (collectedLines s)).withMeter (intervalMeter c i s.meter)))

/-- The entries into IDLE and TRIPPED that wait are taken: they came before the expiry, which finds the
unexpected mark clear (R68; log 33). -/
def takeEntries (s : State) : State :=
  match s.inbox.meterEntries with
  | [] => s
  | _ :: _ =>
    (s.withInbox { s.inbox with meterEntries := [] }).withMeter { s.meter with unexpected := false }

/-- What must be taken before an expiry: the entries that came first (R68, log 33), and the increments of
the interval that ends, which the Account Store takes within it (R187, log 25). -/
def settle (s : State) : State := settleFuel (settleMetered (takeEntries s))

/-- One meter interval (R65 to R73). -/
def interval (s : State) : State :=
  whenActive s fun s => if s.meter.interval.isRunning then formIncrements (settle s) else s

/-- The Meter Unit takes an entry into IDLE or TRIPPED: the unexpected mark clears (R68). -/
def clearUnexpected (s : State) : State :=
  whenActive s fun s =>
    match s.inbox.meterEntries with
    | [] => s
    | _ :: rest =>
      (s.withInbox { s.inbox with meterEntries := rest }).withMeter { s.meter with unexpected := false }

/-- The cavern inventory in litres (R72). -/
def cavernInventory (s : State) : Int :=
  acc64 ((s.cfg.station.baseInventory : Int) * 1000 + s.meter.net)

/-! ### Pressure history (R74, R75) -/

/-- The ring with a sample appended, at most 16 (R74). -/
def pushSample (ring : List Int) (v : Int) : List Int :=
  if Config.ringPlaces ≤ ring.length then ring.tail ++ [v] else ring ++ [v]

/-- Newest minus oldest. -/
def ringRise (ring : List Int) : Int := ring.getLastD 0 - ring.headD 0

/-- The Meter Unit's record after a sample: with a full ring both caps are judged anew (R74, R75). -/
def takeSample (cfg : StationCfg) (v : Int) (m : Meter) : Meter :=
  let ring := pushSample m.ring v
  if ring.length = Config.ringPlaces then
    { m with
      ring := ring
      injCap := decide ((cfg.riseLimit : Int) < ringRise ring)
      wdCap := decide ((cfg.fallLimit : Int) < -(ringRise ring)) }
  else { m with ring := ring }

/-- PRESSURE_RATE for a cap that comes into force (R75). -/
def capEvents (before after : Meter) : List (EventKind × Nat) :=
  (if before.injCap = false ∧ after.injCap = true then [(.pressureRate, 1)] else []) ++
  (if before.wdCap = false ∧ after.wdCap = true then [(.pressureRate, 2)] else [])

/-- A history timer expiry (R74). -/
def historyExpiry (s : State) : State :=
  whenActive s fun s =>
    if s.meter.history.isRunning then
      match s.usable .wellP with
      | none => s
      | some v =>
        let m := takeSample s.cfg.station v s.meter
        postAll (capEvents s.meter m) (s.withMeter m)
    else s

/-! ### The cavern limits (R76, R77) -/

/-- The cavern injection limit (R76). -/
def cavernInj (s : State) : Nat :=
  match s.usable .wellP with
  | none => 0
  | some p =>
    if (s.cfg.station.pmax : Int) ≤ p then 0
    else
      let lim := min s.cfg.station.winj (curveAt s.cfg.curves.inj p)
      if s.meter.injCap then min lim s.cfg.station.fmin else lim

/-- The cavern withdrawal limit (R77). -/
def cavernWd (s : State) : Nat :=
  match s.usable .wellP with
  | none => 0
  | some p =>
    if p ≤ (s.cfg.station.pmin : Int) then 0
    else
      let lim := min s.cfg.station.wwd (curveAt s.cfg.curves.wd p)
      if s.meter.wdCap then min lim s.cfg.station.fmin else lim

/-! ### The commands -/

/-- METER_INTERVAL (R65). -/
def execMeterInterval (s : State) : Host.Outcome State Fault Refusal := .next (interval s)

/-- UNEXPECTED_MARK_CLEAR (R68). -/
def execUnexpectedMarkClear (s : State) : Host.Outcome State Fault Refusal := .next (clearUnexpected s)

/-- HISTORY_TIMER_EXPIRY (R74). -/
def execHistoryTimerExpiry (s : State) : Host.Outcome State Fault Refusal := .next (historyExpiry s)

end Sys2Proof.Machine
end

