-- ==== Sys2Proof/Machine/ImageCheck.lean ====
section
/-! DEFINITION. The configuration image: reading its nine records (R204) and the seven checks (R205). -/

namespace Sys2Proof.Machine

/-! ### Fields (R204: most significant byte first) -/

/-- An unsigned field of `k` bytes. -/
def takeU (k : Nat) (bs : List Byte) : Option (Nat × List Byte) :=
  if bs.length < k then none else some (beNat (bs.take k), bs.drop k)

/-- A signed field of `k` bytes. -/
def takeS (k : Nat) (bs : List Byte) : Option (Int × List Byte) :=
  if bs.length < k then none else some (beInt (bs.take k), bs.drop k)

/-- `k` bytes as they stand. -/
def takeBytes (k : Nat) (bs : List Byte) : Option (List Byte × List Byte) :=
  if bs.length < k then none else some (bs.take k, bs.drop k)

/-- `n` one-byte numbers. -/
def takeNums : Nat → List Byte → Option (List Nat × List Byte)
  | 0, bs => some ([], bs)
  | n + 1, bs => do
    let (x, bs) ← takeU 1 bs
    let (xs, bs) ← takeNums n bs
    pure (x :: xs, bs)

/-- A record: its kind byte, its two-byte body length, and its content, which takes exactly that length
(R204, check 2 of R205). -/
def takeRecord {α : Type} (kind : Nat) (content : List Byte → Option (α × List Byte)) (bs : List Byte) :
    Option (α × List Byte) := do
  let (k, bs) ← takeU 1 bs
  let (len, bs) ← takeU 2 bs
  let (x, rest) ← content bs
  if k = kind ∧ bs.length - rest.length = len then pure (x, rest) else none

/-! ### Codes (R204) -/

def faultModeOf : Nat → Option FaultMode
  | 1 => some .latched
  | 2 => some .report
  | _ => none

def fittingOf : Nat → Option Bool
  | 1 => some true
  | 2 => some false
  | _ => none

def lineModeOf : Nat → Option LineMode
  | 1 => some .sense
  | 2 => some .count
  | 3 => some .pwm
  | 4 => some .odDrive
  | 5 => some .ppDrive
  | _ => none

def polarityOf : Nat → Option Polarity
  | 1 => some .activeHigh
  | 2 => some .activeLow
  | _ => none

def roleOf : Nat → Option Role
  | 1 => some .meterPulse
  | 2 => some .fuelPulse
  | 3 => some .demandOut
  | 4 => some .whvCmd
  | 5 => some .injvCmd
  | 6 => some .wdvCmd
  | 7 => some .tripOut
  | 8 => some .u1RunCmd
  | 9 => some .u2RunCmd
  | 10 => some .twrACmd
  | 11 => some .twrBCmd
  | 12 => some .heaterCmd
  | 13 => some .whvOpenFb
  | 14 => some .whvClosedFb
  | 15 => some .injvFb
  | 16 => some .wdvFb
  | 17 => some .estopIn
  | 18 => some .clearIn
  | 19 => some .u1RunFb
  | 20 => some .u2RunFb
  | 21 => some .u1FaultIn
  | 22 => some .u2FaultIn
  | 23 => some .spare
  | _ => none

/-! ### The nine records (R204) -/

def takeStation (bs : List Byte) : Option (StationCfg × List Byte) := do
  let (shareCycle, bs) ← takeU 1 bs
  let (deadband, bs) ← takeU 2 bs
  let (trimShift, bs) ← takeU 1 bs
  let (fmin, bs) ← takeU 3 bs
  let (winj, bs) ← takeU 3 bs
  let (wwd, bs) ← takeU 3 bs
  let (pmin, bs) ← takeU 2 bs
  let (pmax, bs) ← takeU 2 bs
  let (baseInventory, bs) ← takeU 5 bs
  let (historyInterval, bs) ← takeU 1 bs
  let (riseLimit, bs) ← takeU 2 bs
  let (fallLimit, bs) ← takeU 2 bs
  let (lpp, bs) ← takeU 2 bs
  let (fuelPerPulse, bs) ← takeU 2 bs
  let (alpha, bs) ← takeU 1 bs
  let (deltaMax, bs) ← takeU 3 bs
  let (rfull, bs) ← takeU 3 bs
  let (holdTime, bs) ← takeU 2 bs
  let (settleTime, bs) ← takeU 2 bs
  let (lineupTimeout, bs) ← takeU 2 bs
  let (closeTimeout, bs) ← takeU 2 bs
  pure (⟨shareCycle, deadband, trimShift, fmin, winj, wwd, pmin, pmax, baseInventory, historyInterval,
    riseLimit, fallLimit, lpp, fuelPerPulse, alpha, deltaMax, rfull, holdTime, settleTime, lineupTimeout,
    closeTimeout⟩, bs)

def takeTerminals (bs : List Byte) : Option (List Nat × List Byte) := do
  let (count, bs) ← takeU 1 bs
  takeNums count bs

/-- The points of a curve, x of `xw` bytes and y of `yw` bytes each. -/
def takePoints (xw yw : Nat) : Nat → List Byte → Option (List (Nat × Nat) × List Byte)
  | 0, bs => some ([], bs)
  | n + 1, bs => do
    let (x, bs) ← takeU xw bs
    let (y, bs) ← takeU yw bs
    let (ps, bs) ← takePoints xw yw n bs
    pure ((x, y) :: ps, bs)

def takeCurve (xw yw : Nat) (bs : List Byte) : Option (Curve × List Byte) := do
  let (count, bs) ← takeU 1 bs
  let (ps, bs) ← takePoints xw yw count bs
  pure (⟨ps⟩, bs)

def takeCurves (bs : List Byte) : Option (CurvesCfg × List Byte) := do
  let (wd, bs) ← takeCurve 2 3 bs
  let (inj, bs) ← takeCurve 2 3 bs
  let (unit, bs) ← takeCurve 3 3 bs
  let (zc, bs) ← takeCurve 2 2 bs
  let (water, bs) ← takeCurve 2 2 bs
  pure (⟨wd, inj, unit, zc, water⟩, bs)

def takeCompressor (bs : List Byte) : Option (CompressorCfg × List Byte) := do
  let (startTimeout, bs) ← takeU 2 bs
  let (cooldown, bs) ← takeU 2 bs
  let (minRun, bs) ← takeU 2 bs
  let (minStop, bs) ← takeU 2 bs
  let (fm, bs) ← takeU 1 bs
  let faultMode ← faultModeOf fm
  let (hours1, bs) ← takeU 3 bs
  let (hours2, bs) ← takeU 3 bs
  let (startThreshold, bs) ← takeU 1 bs
  let (stopThreshold, bs) ← takeU 1 bs
  let (startDwell, bs) ← takeU 2 bs
  let (stopDwell, bs) ← takeU 2 bs
  pure (⟨startTimeout, cooldown, minRun, minStop, faultMode, hours1, hours2, startThreshold,
    stopThreshold, startDwell, stopDwell⟩, bs)

def takeDryer (bs : List Byte) : Option (DryerCfg × List Byte) := do
  let (lmax, bs) ← takeU 3 bs
  let (dmax, bs) ← takeU 3 bs
  let (heatTime, bs) ← takeU 2 bs
  let (coolTime, bs) ← takeU 2 bs
  let (regenTarget, bs) ← takeU 2 bs
  let (dewLimit, bs) ← takeS 2 bs
  let (dewHysteresis, bs) ← takeU 1 bs
  pure (⟨lmax, dmax, heatTime, coolTime, regenTarget, dewLimit, dewHysteresis⟩, bs)

def takePeriod (bs : List Byte) : Option ((Nat × Nat) × List Byte) := do
  let (minutes, bs) ← takeU 1 bs
  let (grace, bs) ← takeU 1 bs
  pure ((minutes, grace), bs)

def takeLines : Nat → List Byte → Option (List LineCfg × List Byte)
  | 0, bs => some ([], bs)
  | n + 1, bs => do
    let (r, bs) ← takeU 1 bs
    let role ← roleOf r
    let (m, bs) ← takeU 1 bs
    let mode ← lineModeOf m
    let (p, bs) ← takeU 1 bs
    let polarity ← polarityOf p
    let (ls, bs) ← takeLines n bs
    pure (⟨role, mode, polarity⟩ :: ls, bs)

def takeFieldTable (bs : List Byte) : Option ((Nat × List LineCfg) × List Byte) := do
  let (debounce, bs) ← takeU 1 bs
  let (lines, bs) ← takeLines 24 bs
  pure ((debounce, lines), bs)

/-- A request: its count 1 to 4, then four bytes, those beyond the count ignored. -/
def takeRequest (bs : List Byte) : Option (List Byte × List Byte) := do
  let (count, bs) ← takeU 1 bs
  let (four, bs) ← takeBytes 4 bs
  if 1 ≤ count ∧ count ≤ 4 then pure (four.take count, bs) else none

/-- A two-byte fallback, signed for DEW_OUT, whose range holds negative values (R13). -/
def takeFallback (q : Qty) (bs : List Byte) : Option (Int × List Byte) :=
  match q with
  | .dewOut => takeS 2 bs
  | .wellP => (takeU 2 bs).map (fun (n, r) => ((n : Int), r))
  | .wellT => (takeU 2 bs).map (fun (n, r) => ((n : Int), r))
  | .lineP => (takeU 2 bs).map (fun (n, r) => ((n : Int), r))
  | .regenT => (takeU 2 bs).map (fun (n, r) => ((n : Int), r))

def takeSlot (q : Qty) (bs : List Byte) : Option (SlotCfg × List Byte) := do
  let (f, bs) ← takeU 1 bs
  let fitted ← fittingOf f
  let (select, bs) ← takeU 1 bs
  let (startRequest, bs) ← takeRequest bs
  let (wait, bs) ← takeU 1 bs
  let (readRequest, bs) ← takeRequest bs
  let (replyLength, bs) ← takeU 1 bs
  let (mask, bs) ← takeU 1 bs
  let (mtch, bs) ← takeU 1 bs
  let (gain, bs) ← takeS 2 bs
  let (offset, bs) ← takeS 2 bs
  let (fallback, bs) ← takeFallback q bs
  pure (⟨fitted, select, startRequest, wait, readRequest, replyLength, BitVec.ofNat 8 mask,
    BitVec.ofNat 8 mtch, gain, offset, fallback⟩, bs)

def takeSlots (bs : List Byte) : Option ((Nat × PerQty SlotCfg) × List Byte) := do
  let (divide, bs) ← takeU 2 bs
  let (wellP, bs) ← takeSlot .wellP bs
  let (wellT, bs) ← takeSlot .wellT bs
  let (lineP, bs) ← takeSlot .lineP bs
  let (dewOut, bs) ← takeSlot .dewOut bs
  let (regenT, bs) ← takeSlot .regenT bs
  pure ((divide, ⟨wellP, wellT, lineP, dewOut, regenT⟩), bs)

/-- The nine records in their order, and nothing after them. -/
def takeImage (bs : List Byte) : Option Image := do
  let (station, bs) ← takeRecord 1 takeStation bs
  let (address, bs) ← takeRecord 2 (takeU 1) bs
  let (terminals, bs) ← takeRecord 3 takeTerminals bs
  let (curves, bs) ← takeRecord 4 takeCurves bs
  let (compressor, bs) ← takeRecord 5 takeCompressor bs
  let (dryer, bs) ← takeRecord 6 takeDryer bs
  let (period, bs) ← takeRecord 7 takePeriod bs
  let (table, bs) ← takeRecord 8 takeFieldTable bs
  let (slots, bs) ← takeRecord 9 takeSlots bs
  if bs = [] then
    pure ⟨station, address, terminals, curves, compressor, dryer, period.1, period.2, table.1, table.2,
      slots.1, slots.2⟩
  else none

/-! ### The checks of R205 -/

/-- `x` lies within `lo` to `hi`. -/
def within (lo hi x : Nat) : Bool := decide (lo ≤ x) && decide (x ≤ hi)

/-- Check 3, the Station record (R63, R123, R147). -/
def stationInRange (c : StationCfg) : Bool :=
  [1, 2, 4, 8].contains c.shareCycle && within 0 65535 c.deadband && within 1 4 c.trimShift &&
  within 0 200000 c.fmin && within 1 2000000 c.winj && within 1 2000000 c.wwd &&
  within 1 2500 c.pmin && within 1 2500 c.pmax && within 0 1000000000000 c.baseInventory &&
  within 1 60 c.historyInterval && within 1 2500 c.riseLimit && within 1 2500 c.fallLimit &&
  within 1 65535 c.lpp && within 1 4095 c.fuelPerPulse && within 1 32 c.alpha &&
  within 100 500000 c.deltaMax && within 1000 2000000 c.rfull && within 10 600 c.holdTime &&
  within 0 1800 c.settleTime && within 10 300 c.lineupTimeout && within 10 300 c.closeTimeout

/-- Check 3, a curve's values (R61). -/
def curveInRange (c : Curve) (xlo xhi ylo yhi : Nat) : Bool :=
  c.points.all (fun (x, y) => within xlo xhi x && within ylo yhi y)

/-- Check 3, the five curves (R61). -/
def curvesInRange (c : CurvesCfg) : Bool :=
  curveInRange c.wd 1 2500 0 2000000 && curveInRange c.inj 1 2500 0 2000000 &&
  curveInRange c.unit 0 160000 0 2000000 && curveInRange c.zc 1 2500 512 1100 &&
  curveInRange c.water 2330 3730 0 10000

/-- Check 3, the Compressor record (R81); the lower bound of the stop threshold only, its upper bound
being check 7. -/
def compressorInRange (c : CompressorCfg) : Bool :=
  within 10 300 c.startTimeout && within 10 600 c.cooldown && within 0 3600 c.minRun &&
  within 0 1800 c.minStop && within 0 200000 c.hours1 && within 0 200000 c.hours2 &&
  within 32 64 c.startThreshold && decide (16 ≤ c.stopThreshold) && within 5 600 c.startDwell &&
  within 5 1800 c.stopDwell

/-- Check 3, the Dryer record (R104). -/
def dryerInRange (c : DryerCfg) : Bool :=
  within 100 1000000 c.lmax && within 1 2000000 c.dmax && within 10 480 c.heatTime &&
  within 10 480 c.coolTime && within 2330 6230 c.regenTarget && decide (-600 ≤ c.dewLimit) &&
  decide (c.dewLimit ≤ 400) && within 1 100 c.dewHysteresis

/-- The range of a quantity (R13). -/
def qtyRange : Qty → Int × Int
  | .wellP => (1, 2500)
  | .wellT => (2330, 3730)
  | .lineP => (1, 1200)
  | .dewOut => (-600, 400)
  | .regenT => (2330, 6230)

/-- A value lies within its quantity's range (R13, R16). -/
def qtyInRange (q : Qty) (v : Int) : Bool :=
  decide ((qtyRange q).1 ≤ v) && decide (v ≤ (qtyRange q).2)

/-- Checks 3 and 6, one slot (R13). -/
def slotInRange (q : Qty) (c : SlotCfg) : Bool :=
  within 0 3 c.select && within 1 100 c.conversionWait && within 3 4 c.replyLength &&
  qtyInRange q c.fallback

/-- x strictly ascending. -/
def ascending : List (Nat × Nat) → Bool
  | [] => true
  | [_] => true
  | (x0, _) :: (x1, y1) :: rest => decide (x0 < x1) && ascending ((x1, y1) :: rest)

/-- Check 4 (R61). -/
def curveShapeOk (c : Curve) : Bool := within 2 16 c.points.length && ascending c.points

/-- The legal modes of a role (R2). -/
def legalMode (r : Role) (m : LineMode) : Bool :=
  match r with
  | .meterPulse => decide (m = .count)
  | .fuelPulse => decide (m = .count)
  | .demandOut => decide (m = .pwm)
  | .whvCmd => decide (m = .odDrive ∨ m = .ppDrive)
  | .injvCmd => decide (m = .odDrive ∨ m = .ppDrive)
  | .wdvCmd => decide (m = .odDrive ∨ m = .ppDrive)
  | .tripOut => decide (m = .odDrive ∨ m = .ppDrive)
  | .u1RunCmd => decide (m = .odDrive ∨ m = .ppDrive)
  | .u2RunCmd => decide (m = .odDrive ∨ m = .ppDrive)
  | .twrACmd => decide (m = .odDrive ∨ m = .ppDrive)
  | .twrBCmd => decide (m = .odDrive ∨ m = .ppDrive)
  | .heaterCmd => decide (m = .odDrive ∨ m = .ppDrive)
  | .whvOpenFb => decide (m = .sense)
  | .whvClosedFb => decide (m = .sense)
  | .injvFb => decide (m = .sense)
  | .wdvFb => decide (m = .sense)
  | .estopIn => decide (m = .sense)
  | .clearIn => decide (m = .sense)
  | .u1RunFb => decide (m = .sense)
  | .u2RunFb => decide (m = .sense)
  | .u1FaultIn => decide (m = .sense)
  | .u2FaultIn => decide (m = .sense)
  | .spare => decide (m = .sense ∨ m = .odDrive ∨ m = .ppDrive)

/-- The 22 required roles (R2). -/
def requiredRoles : List Role :=
  [.meterPulse, .fuelPulse, .demandOut, .whvCmd, .injvCmd, .wdvCmd, .tripOut, .u1RunCmd, .u2RunCmd,
   .twrACmd, .twrBCmd, .heaterCmd, .whvOpenFb, .whvClosedFb, .injvFb, .wdvFb, .estopIn, .clearIn,
   .u1RunFb, .u2RunFb, .u1FaultIn, .u2FaultIn]

/-- The number of lines that carry a role. -/
def linesWith (r : Role) (ls : List LineCfg) : Nat := (ls.filter (fun c => decide (c.role = r))).length

/-- Check 5 (R2). -/
def lineTableOk (ls : List LineCfg) : Bool :=
  decide (ls.length = 24) && requiredRoles.all (fun r => decide (linesWith r ls = 1)) &&
  decide (linesWith .spare ls = 2) && ls.all (fun c => legalMode c.role c.mode)

/-- Checks 3 to 7 of R205 on the image's fields. -/
def imageFieldsOk (i : Image) : Bool :=
  -- check 3
  stationInRange i.station && within 1 32 i.ownAddress && within 1 4 i.terminals.length &&
  i.terminals.all (fun a => within 48 63 a) && decide i.terminals.Nodup && curvesInRange i.curves &&
  compressorInRange i.compressor && dryerInRange i.dryer && [15, 30, 60].contains i.periodMinutes &&
  within 5 120 i.grace && within 4 64 i.debounce && within 2 256 i.clockDivide &&
  -- check 4
  curveShapeOk i.curves.wd && curveShapeOk i.curves.inj && curveShapeOk i.curves.unit && curveShapeOk i.curves.zc &&
  curveShapeOk i.curves.water &&
  -- check 5
  lineTableOk i.lines &&
  -- check 6, with the slots' ranges of check 3
  i.slots.wellP.fitted && i.slots.wellT.fitted && i.slots.lineP.fitted && i.slots.dewOut.fitted &&
  slotInRange .wellP i.slots.wellP && slotInRange .wellT i.slots.wellT && slotInRange .lineP i.slots.lineP &&
  slotInRange .dewOut i.slots.dewOut && slotInRange .regenT i.slots.regenT &&
  -- check 7
  decide (i.station.pmin < i.station.pmax) &&
  decide (i.station.fmin ≤ min i.station.winj i.station.wwd) &&
  decide (i.compressor.stopThreshold + 4 ≤ i.compressor.startThreshold)

/-- Check 1 of R205: the CRC-16 over every byte before the last two equals the last two. -/
def imageCrcOk (bytes : List Byte) : Bool :=
  decide (crc16 (bytes.take (bytes.length - 2)) = beWord (bytes.drop (bytes.length - 2)))

/-- The image that passes every check of R205, or none. `bytes` is the whole image, header first. -/
def checkImage (bytes : List Byte) : Option Image :=
  if imageCrcOk bytes then
    match takeImage ((bytes.take (bytes.length - 2)).drop 3) with
    | none => none
    | some i => if imageFieldsOk i then some i else none
  else none

end Sys2Proof.Machine
end

