-- ==== Sys2Proof/Machine/Scan.lean ====
section
/-! DEFINITION. The Sensor Scanner (R12 to R19): the scan pass, the judgement of a reply, the quantity
records. -/

namespace Sys2Proof.Machine

/-! ### Transactions and slots (R12, R13, R15) -/

/-- A transaction of a slot: its select line, the bytes clocked out, and (k + 1) × divide µs (R12). -/
def transaction (divide select : Nat) (bytes : List Byte) : Transaction :=
  { select := select, bytesOut := bytes, micros := (bytes.length + 1) * divide }

/-- The start transaction of a slot (R15, step 1). -/
def startTransaction (img : Image) (q : Qty) : Transaction :=
  transaction img.clockDivide (getQty img.slots q).select (getQty img.slots q).startRequest

/-- The read transaction of a slot: the read request and as many zero bytes as the reply length (R15,
step 3). -/
def readTransaction (img : Image) (q : Qty) : Transaction :=
  transaction img.clockDivide (getQty img.slots q).select
    ((getQty img.slots q).readRequest ++ List.replicate (getQty img.slots q).replyLength 0#8)

/-- The first fitted slot of a list. -/
def firstFitted (img : Image) (qs : List Qty) : Option Qty :=
  qs.find? (fun q => (getQty img.slots q).fitted)

/-- The slots in slot order (R13). -/
def slotOrder : List Qty := [.wellP, .wellT, .lineP, .dewOut, .regenT]

/-- The slots after one, in slot order. -/
def slotsAfter : Qty → List Qty
  | .wellP => [.wellT, .lineP, .dewOut, .regenT]
  | .wellT => [.lineP, .dewOut, .regenT]
  | .lineP => [.dewOut, .regenT]
  | .dewOut => [.regenT]
  | .regenT => []

/-- The transaction that runs on the sensor line; there is never a second one (R12). -/
def runningTransaction (sc : Scanner) : Option Transaction :=
  match sc.pass with
  | none => none
  | some p =>
    match p.phase with
    | .starting t => some t
    | .waiting _ => none
    | .reading t => some t

/-- The select line asserted on the sensor line, if any (R12). -/
def assertedSelect (sc : Scanner) : Option Nat := (runningTransaction sc).map (fun t => t.select)

/-! ### Judging a reply (R16) -/

/-- The value of a reply, or none where the read fails (R16). -/
def judgeReply (q : Qty) (c : SlotCfg) (reply : List Byte) : Option Int :=
  if (reply.getD 0 0 &&& c.statusMask) ≠ c.statusMatch then none
  else
    let raw := beInt [reply.getD 1 0, reply.getD 2 0]
    let v := (raw * c.gain).fdiv 1024 + c.offset
    if qtyInRange q v then some v else none

/-- A quantity record takes a judged read (R17). -/
def updateQty (r : QtyRec) (read : Option Int) : QtyRec :=
  match read with
  | some v => { value := v, state := .good, fails := 0, lastGood := some v }
  | none =>
    let n := heldAt 3 (r.fails + 1)
    let st :=
      match r.state with
      | .none => if n < 3 then .none else .failed
      | .good => if n < 3 then .held else .failed
      | .held => if n < 3 then .held else .failed
      | .failed => .failed
    { r with state := st, fails := n }

/-- The event a judged read posts, by the state before and after it (R17). -/
def qtyEvents (q : Qty) (before after : QState) : List (EventKind × Nat) :=
  if before = .failed ∧ after = .good then [(.quantityRestored, qtyId q)]
  else if before ≠ .failed ∧ after = .failed then [(.quantityFailed, qtyId q)]
  else []

/-- An update of DEW_OUT is delivered to the Dryer Unit (R19). -/
def deliverDew (q : Qty) (r : QtyRec) (s : State) : State :=
  if q = .dewOut then
    s.withInbox { s.inbox with dewUpdates := s.inbox.dewUpdates ++ [(r.state, r.value)] }
  else s

/-- A slot's read is judged and its record updated at once (R15 step 4, R16, R17, R19). -/
def takeReading (q : Qty) (reply : List Byte) (s : State) : State :=
  let before := s.qty q
  let after := updateQty before (judgeReply q (getQty s.cfg.slots q) reply)
  let s1 := s.withScanner { s.scanner with quantities := setQty s.scanner.quantities q after }
  deliverDew q after (postAll (qtyEvents q before.state after.state) s1)

/-! ### The pass (R14, R15) -/

/-- A slot's work begins with its start transaction (R15). -/
def beginSlot (img : Image) (q : Qty) (skipped : Bool) : Pass :=
  { slot := q, phase := .starting (startTransaction img q), skipped := skipped }

/-- After a slot's update the next fitted slot begins, or the pass ends (R15). -/
def nextSlot (p : Pass) (s : State) : State :=
  s.withScanner { s.scanner with
    pass := (firstFitted s.cfg (slotsAfter p.slot)).map (fun q => beginSlot s.cfg q p.skipped) }

/-- A scan timer expiry (R14). -/
def scanExpiry (s : State) : State :=
  whenActive s fun s =>
    if s.scanner.timer.isRunning then
      match s.scanner.pass with
      | none =>
        s.withScanner { s.scanner with
          pass := (firstFitted s.cfg slotOrder).map (fun q => beginSlot s.cfg q false) }
      | some p =>
        if p.skipped then s
        else
          post .scanOverrun (qtyId p.slot)
            (s.withScanner { s.scanner with pass := some { p with skipped := true } })
    else s

/-- The end of a start transaction starts the conversion wait (R15, step 2). -/
def startEnd (s : State) : State :=
  whenActive s fun s =>
    match s.scanner.pass with
    | none => s
    | some p =>
      match p.phase with
      | .starting _ =>
        s.withScanner { s.scanner with
          pass := some { p with phase := .waiting (getQty s.cfg.slots p.slot).conversionWait } }
      | .waiting _ => s
      | .reading _ => s

/-- At the wait's expiry the read transaction runs (R15, step 3). -/
def waitExpiry (s : State) : State :=
  whenActive s fun s =>
    match s.scanner.pass with
    | none => s
    | some p =>
      match p.phase with
      | .waiting _ =>
        s.withScanner { s.scanner with
          pass := some { p with phase := .reading (readTransaction s.cfg p.slot) } }
      | .starting _ => s
      | .reading _ => s

/-- The end of a read transaction, with the reply's bytes (R15, step 4). A list that is not as long as
the slot's reply is no such end (log 24). -/
def readEnd (reply : List Byte) (s : State) : State :=
  whenActive s fun s =>
    match s.scanner.pass with
    | none => s
    | some p =>
      match p.phase with
      | .reading _ =>
        if reply.length = (getQty s.cfg.slots p.slot).replyLength then
          nextSlot p (takeReading p.slot reply s)
        else s
      | .starting _ => s
      | .waiting _ => s

/-! ### Entries to LISTENING and DUPLICATE (R18) -/

/-- A quantity record with its slot's fallback: NONE, count 0, last good absent (R18). -/
def fallbackRec (c : SlotCfg) : QtyRec :=
  { value := c.fallback, state := .none, fails := 0, lastGood := none }

/-- The five records with their fallbacks (R18). -/
def fallbackRecs (img : Image) : PerQty QtyRec :=
  { wellP := fallbackRec img.slots.wellP, wellT := fallbackRec img.slots.wellT
    lineP := fallbackRec img.slots.lineP, dewOut := fallbackRec img.slots.dewOut
    regenT := fallbackRec img.slots.regenT }

/-- At least one quantity record is FAILED (R19). -/
def anyFailed (sc : Scanner) : Bool :=
  slotOrder.any (fun q => decide ((getQty sc.quantities q).state = .failed))

/-! ### The commands -/

/-- SCAN_TIMER_EXPIRY (R14). -/
def execScanTimerExpiry (s : State) : Host.Outcome State Fault Refusal := .next (scanExpiry s)

/-- START_TRANSACTION_END (R15). -/
def execStartTransactionEnd (s : State) : Host.Outcome State Fault Refusal := .next (startEnd s)

/-- CONVERSION_WAIT_EXPIRY (R15). -/
def execConversionWaitExpiry (s : State) : Host.Outcome State Fault Refusal := .next (waitExpiry s)

/-- READ_TRANSACTION_END (R16). -/
def execReadTransactionEnd (reply : List Byte) (s : State) : Host.Outcome State Fault Refusal :=
  .next (readEnd reply s)

end Sys2Proof.Machine
end

