-- ==== Sys2Proof/Machine/Flags.lean ====
section
/-! DEFINITION. The 16 flags of the station's STATUS (R39, R58): each with the condition of its owner. -/

namespace Sys2Proof.Machine

/-- At least one unit is in LOCKOUT (R58). -/
def anyLockout (c : Compressor) : Bool :=
  decide (c.u1.state = .lockout) || decide (c.u2.state = .lockout)

/-- A rate cap is in force on either cavern limit (R58, R75). -/
def rateCapped (m : Meter) : Bool := m.injCap || m.wdCap

/-- The STATUS flags, bit 15 LISTENING to bit 2 PRESSURE_RATE, bits 1 and 0 unused (R39, R58). -/
def statusFlags (s : State) : Word16 :=
  BitVec.ofNat 16 (
    bitValue (decide (s.startup.station = .listening)) 32768 +
    bitValue (decide (s.direction.state = .tripped)) 16384 +
    bitValue s.dryer.offSpec 8192 +
    bitValue s.events.lost 4096 +
    bitValue s.link.overrun 2048 +
    bitValue (decide (s.accounts.sync = .ownClock)) 1024 +
    bitValue (decide (s.accounts.sync = .unsynced)) 512 +
    bitValue (decide (s.compressor.u1.state = .running)) 256 +
    bitValue (decide (s.compressor.u2.state = .running)) 128 +
    bitValue (anyLockout s.compressor) 64 +
    bitValue s.dryer.limit 32 +
    bitValue (anyFailed s.scanner) 16 +
    bitValue s.accounts.cursor.isSome 8 +
    bitValue (rateCapped s.meter) 4)

/-- The UNSYNCED flag of a STATUS (bit 9, R39). -/
def flagUnsynced (w : Word16) : Bool := w.getLsbD 9

end Sys2Proof.Machine
end

