-- ==== Sys2Proof/Machine/StartUp.lean ====
section
/-! DEFINITION. The Start-up Controller (R202 to R209) and the start clock (R193): reset, loading the
image, entry to LISTENING, RUNNING and DUPLICATE. -/

namespace Sys2Proof.Machine

/-! ### Reset (R202) -/

/-- A reset taken at any point: every block at its reset values, the reset held. The levels at the pins
and the waiting commands are outside the part and stand (log 28). -/
def resetPart (s : State) : State :=
  { State.reset with
    lines := { FieldLines.reset with
      recs := s.lines.recs.map (fun r => { LineRec.reset with pinHigh := r.pinHigh }) }
    pending := s.pending }

/-- What the station clocks out to the configuration memory: the read command 0x03 and the two-byte start
address 0 (R203). -/
def memoryReadRequest : List Byte := 0x03#8 :: putWord 0

/-- The end of reset: LOADING starts with CSEL asserted and the read request clocked out, the start clock at
0 (R193, R202, R203). -/
def endReset (s : State) : State :=
  if s.startup.held then
    { s with
      startup := { s.startup with
        held := false, load := .header, csel := true, memoryOut := memoryReadRequest }
      events := { s.events with clock := 0 } }
  else s

/-- One second of the start clock, in every station state, held at its largest value (R193). -/
def clockTick (s : State) : State :=
  if s.startup.held then s
  else s.withEvents { s.events with clock := heldAt Config.clockMax (s.events.clock + 1) }

/-! ### Reading the image (R203, R205, R206) -/

/-- CONFIG_FAULT: CSEL released and the read over, no image in use (R203, R206). -/
def enterConfigFault (s : State) : State :=
  s.withStartup { s.startup with
    station := .configFault, load := .ended, csel := false, memoryOut := [] }

/-- The image length that a header gives. -/
def imageLength (b0 b1 : Byte) : Nat := beNat [b0, b1]

/-- The bytes that the memory read clocks, out and in together, as far as the part has come: the request
and the header, and the whole image once its length is known (R203). -/
def memoryReadBytes : LoadPhase → Nat
  | .notStarted => 0
  | .header => memoryReadRequest.length + 3
  | .body b0 b1 _ => memoryReadRequest.length + imageLength b0 b1
  | .ended => 0

/-- How long a read of `len` bytes takes, in µs: the request, the image and one byte's time more (R203). -/
def imageReadMicros (len : Nat) : Nat := (memoryReadRequest.length + len + 1) * 8

/-- The header has been taken (R203). -/
def takeHeader (b0 b1 b2 : Byte) (s : State) : State :=
  if s.startup.station = .loading ∧ s.startup.load = .header then
    if within 64 4096 (imageLength b0 b1) = true ∧ b2 = 1#8 then
      s.withStartup { s.startup with load := .body b0 b1 b2 }
    else enterConfigFault s
  else s

/-! ### Entry to LISTENING (R207) -/

/-- The share cycle C of the image in use, ms. -/
def shareCycleMs (img : Image) : Nat := img.station.shareCycle * 1000

/-- The listening timer runs for 3 × C (R207). -/
def listeningTimer (img : Image) : Timer := .running (3 * shareCycleMs img)

/-- Entry to LISTENING, in one act: the image comes into force in every block (R207), and each block
takes the entry by its own rule (R4, R5, R18, R36, R63, R80, R103, R124). -/
def enterListening (img : Image) (signature : Word16) (s : State) : State :=
  { s with
    startup := { s.startup with
      station := .listening, load := .ended, csel := false, memoryOut := [], inUse := true,
      image := img, signature := signature, listening := listeningTimer img }
    lines := { s.lines with recs := List.zipWith (startLine img.debounce) img.lines s.lines.recs }
    scanner :=
      { timer := .running Config.scanPeriod, pass := none, quantities := fallbackRecs img }
    link := { s.link with rx := .waiting }
    meter := { s.meter with
      interval := .running Config.meterPeriod
      history := .ofMinutes img.station.historyInterval }
    compressor := { s.compressor with
      u1 := { s.compressor.u1 with runSeconds := img.compressor.hours1 * 3600 }
      u2 := { s.compressor.u2 with runSeconds := img.compressor.hours2 * 3600 } }
    dryer := { s.dryer with
      a := { s.dryer.a with load := img.dryer.lmax * 1000 }
      b := { s.dryer.b with load := img.dryer.lmax * 1000 } }
    share := { s.share with timer := .running (shareCycleMs img) } }

/-- The last image byte has been taken: the image is judged (R205). `rest` is the image after its three
header bytes; a list of another length is no such end (log 24). -/
def takeImageBody (rest : List Byte) (s : State) : State :=
  if s.startup.station = .loading then
    match s.startup.load with
    | .body b0 b1 b2 =>
      if rest.length + 3 = imageLength b0 b1 then
        let bytes := b0 :: b1 :: b2 :: rest
        match checkImage bytes with
        | none => enterConfigFault s
        | some img => enterListening img (beWord (bytes.drop (bytes.length - 2))) s
      else s
    | .notStarted => s
    | .header => s
    | .ended => s
  else s

/-! ### Entry to RUNNING (R208) -/

/-- The listening timer's expiry: RUNNING, the entry delivered to the Direction Controller and to the
Dryer Unit (R208). -/
def listeningExpiry (s : State) : State :=
  if s.startup.station = .listening ∧ s.startup.listening.isRunning = true then
    (s.withStartup { s.startup with station := .running, listening := .stopped }).withInbox
      { s.inbox with runningToDirection := true, runningToDryer := true }
  else s

/-! ### Entry to DUPLICATE (R209) -/

/-- The unit records with their timers stopped and their fields at reset, the run seconds at the
configured hours (R101). -/
def restartedUnit (hours : Nat) : UnitRec := { UnitRec.reset with runSeconds := hours * 3600 }

/-- The requests on entry to DUPLICATE: the Direction Controller's and the run commands released, the
tower and heater requests as they stand (R101, R121, R167). -/
def duplicateRequests (d : DriveReqs) : DriveReqs :=
  { d with whv := false, injv := false, wdv := false, tripOut := false, u1Run := false, u2Run := false }

/-- Entry to DUPLICATE (R209), each block by its own rule: R4, R18, R36, R54, R64, R101, R121, R145,
R167, R191, R196. The image and the signature are kept, and the start clock runs on. -/
def enterDuplicate (s : State) : State :=
  { s with
    startup := { s.startup with station := .duplicate, listening := .stopped }
    lines :=
      { recs := s.lines.recs.map stopLine
        requests := duplicateRequests s.lines.requests
        appliedDuty := 0 }
    scanner := { timer := .stopped, pass := none, quantities := fallbackRecs s.cfg }
    link := { s.link with buffers := [], overrun := false, queue := [], hold := none, sending := none }
    roster := List.replicate 32 PeerRec.reset
    meter := Meter.reset
    compressor := { Compressor.reset with
      u1 := restartedUnit s.cfg.compressor.hours1
      u2 := restartedUnit s.cfg.compressor.hours2 }
    dryer := { s.dryer with above := 0, below := 0, offSpec := true, limit := false }
    share := Share.reset
    direction := Direction.reset
    accounts := Accounts.reset
    events := { s.events with queue := [], lost := false }
    inbox := Inbox.empty }

/-! ### The commands -/

/-- RESET (R202). -/
def execReset (s : State) : Host.Outcome State Fault Refusal := .next (resetPart s)

/-- RESET_END (R202). -/
def execResetEnd (s : State) : Host.Outcome State Fault Refusal := .next (endReset s)

/-- CONFIG_HEADER_TAKEN (R203). -/
def execConfigHeaderTaken (b0 b1 b2 : Byte) (s : State) : Host.Outcome State Fault Refusal :=
  .next (takeHeader b0 b1 b2 s)

/-- CONFIG_IMAGE_READ (R205). -/
def execConfigImageRead (rest : List Byte) (s : State) : Host.Outcome State Fault Refusal :=
  .next (takeImageBody rest s)

/-- LISTENING_TIMER_EXPIRY (R208). -/
def execListeningTimerExpiry (s : State) : Host.Outcome State Fault Refusal := .next (listeningExpiry s)

/-- START_CLOCK_TICK (R193). -/
def execStartClockTick (s : State) : Host.Outcome State Fault Refusal := .next (clockTick s)

end Sys2Proof.Machine
end

