-- ==== Sys2Proof/Machine/Roster.lean ====
section
/-! DEFINITION. The Peer Roster (R44 to R54): taking a STATUS, silence, duplicates. -/

namespace Sys2Proof.Machine

/-- The record of a station address, 1 to 32 (R44). -/
def peerRec (roster : List PeerRec) (address : Nat) : PeerRec := roster.getD (address - 1) PeerRec.reset

/-- The record of an address replaced. -/
def setPeer (roster : List PeerRec) (address : Nat) (r : PeerRec) : List PeerRec :=
  roster.set (address - 1) r

/-- A STATUS filed in a record (R46): every field replaced, the silence timer at 3 × C, FRESH; the
disagreement mark cleared where a new stay in FRESH begins. -/
def fileStatus (cycleMs : Nat) (f : StatusFields) (r : PeerRec) : PeerRec :=
  { state := .fresh
    last := f
    silence := .running (3 * cycleMs)
    disagree :=
      match r.state with
      | .fresh => r.disagree
      | .absent => false
      | .stale => false }

/-- The events of an arrival by the state before it (R46, R47). -/
def arrivalEvents (address : Nat) (ownSig : Word16) (f : StatusFields) (before : PeerState) :
    List (EventKind × Nat) :=
  match before with
  | .fresh => []
  | .stale => [(.peerReturn, address)]
  | .absent =>
    if f.signature = ownSig then [(.peerNew, address)]
    else [(.peerNew, address), (.configMismatch, address)]

/-- The judgement of R48 finds a disagreement: both synced, the mark clear, the sequences differ. -/
def disagrees (a : Accounts) (r : PeerRec) : Bool :=
  decide (a.sync ≠ .unsynced) && !flagUnsynced r.last.flags && !r.disagree &&
  decide (r.last.openSeq ≠ a.openSeq)

/-- A STATUS of another station is filed and judged (R46, R47, R48). -/
def takePeerStatus (address : Nat) (f : StatusFields) (s : State) : State :=
  let before := peerRec s.roster address
  let filed := fileStatus (shareCycleMs s.cfg) f before
  let clash := disagrees s.accounts filed
  let after := { filed with disagree := filed.disagree || clash }
  postAll (arrivalEvents address s.startup.signature f before.state ++
      (if clash then [(.periodDisagree, address)] else []))
    (s.withRoster (setPeer s.roster address after))

/-- A STATUS with the duplicate mark (R51): DUPLICATE in LISTENING (R209), DUP_ADDRESS in RUNNING. -/
def takeDuplicate (s : State) : State :=
  if s.startup.station = .listening then enterDuplicate s
  else post .dupAddress s.cfg.ownAddress s

/-- The roster takes its oldest STATUS (R45). -/
def takeStatus (s : State) : State :=
  takeBy .peerRoster s fun f =>
    match f.body with
    | .status fields => some (if f.dup then takeDuplicate else takePeerStatus f.sender fields)
    | _ => none

/-- A record one step toward ABSENT at its silence timer's expiry (R49). -/
def silenceStep (cycleMs : Nat) (r : PeerRec) : PeerRec :=
  match r.state with
  | .fresh => { r with state := .stale, silence := .running (5 * cycleMs) }
  | .stale => PeerRec.reset
  | .absent => { r with silence := .stopped }

/-- The event of a silence timer's expiry (R49). -/
def silenceEvents (address : Nat) : PeerState → List (EventKind × Nat)
  | .fresh => [(.peerStale, address)]
  | .stale => [(.peerLost, address)]
  | .absent => []

/-- The silence timer of an address expires (R49). -/
def silenceExpiry (address : Nat) (s : State) : State :=
  whenActive s fun s =>
    let r := peerRec s.roster address
    if r.silence.isRunning then
      postAll (silenceEvents address r.state)
        (s.withRoster (setPeer s.roster address (silenceStep (shareCycleMs s.cfg) r)))
    else s

/-- A record counts in the share computation only while FRESH (R52). -/
def freshRecs (roster : List PeerRec) : List PeerRec :=
  roster.filter (fun r => decide (r.state = .fresh))

/-! ### The commands -/

/-- STATUS_TAKE (R45). -/
def execStatusTake (s : State) : Host.Outcome State Fault Refusal := .next (takeStatus s)

/-- SILENCE_TIMER_EXPIRY (R49). -/
def execSilenceTimerExpiry (peer : Nat) (s : State) : Host.Outcome State Fault Refusal :=
  if 1 ≤ peer ∧ peer ≤ 32 then .next (silenceExpiry peer s) else .fault (.noSuchPeer peer)

end Sys2Proof.Machine
end

