-- ==== Sys2Proof/Machine/Share.lean ====
section
/-! DEFINITION. The Share Engine (R123 to R145) and the assembly of STATUS (R55 to R60). -/

namespace Sys2Proof.Machine

/-! ### The computation (R125 to R139) -/

/-- What one share cycle reads, once, at the start of its run (R125). -/
structure ShareIn where
  target : Int
  cavernInj : Nat
  cavernWd : Nat
  cAvail : Nat
  dAvail : Nat
  peers : List StatusFields
  ownFlow : Int
  dirState : DirState
  running : Bool
  q : Int
deriving DecidableEq, Repr

/-- What one share cycle forms (R139). -/
structure ShareOut where
  d : Dir
  aInj : Nat
  aWd : Nat
  q : Int
  p : Nat
deriving DecidableEq, Repr

/-- The direction d (R127). -/
def shareDir (deadband : Nat) (target : Int) : Dir :=
  if (deadband : Int) ≤ target then .inj
  else if target ≤ -(deadband : Int) then .wd
  else .hold

/-- The pad offers its availabilities: RUNNING and not TRIPPED (R129). -/
def offers (i : ShareIn) : Bool := i.running && decide (i.dirState ≠ .tripped)

/-- A_INJ (R128, R129). -/
def shareAInj (i : ShareIn) : Nat := if offers i then min i.cavernInj i.cAvail else 0

/-- A_WD (R128, R129). -/
def shareAWd (i : ShareIn) : Nat := if offers i then min i.cavernWd i.dAvail else 0

/-- One of two availabilities in direction d; 0 in HOLD (R130, R131). -/
def inDir (d : Dir) (aInj aWd : Nat) : Nat :=
  match d with
  | .inj => aInj
  | .wd => aWd
  | .hold => 0

/-- A_own (R130). -/
def ownAvail (d : Dir) (i : ShareIn) : Nat := inDir d (shareAInj i) (shareAWd i)

/-- The site availability S (R131). Every FRESH peer's field is added in every station state, so S may be
above 0 in LISTENING, where R143 gives it as 0 (log 32): B, P and Q are 0 there either way. -/
def siteAvail (d : Dir) (i : ShareIn) : Nat :=
  ownAvail d i + (i.peers.map (fun f => inDir d f.aInj f.aWd)).sum

/-- The base share B (R132). -/
def baseShare (magnitude own site : Nat) : Nat :=
  if site = 0 then 0 else if site ≤ magnitude then own else magnitude * own / site

/-- The trim applies (R133). -/
def trimApplies (d : Dir) (st : DirState) (site : Nat) : Bool :=
  decide (0 < site) &&
  match d with
  | .inj => decide (st = .inject)
  | .wd => decide (st = .withdraw)
  | .hold => false

/-- The site flow Fsite (R134). -/
def siteFlow (d : Dir) (i : ShareIn) : Int :=
  let sum := i.ownFlow + (i.peers.map (fun f => f.flow)).sum
  match d with
  | .inj => sum
  | .wd => -sum
  | .hold => 0

/-- The step du of the trim (R135). -/
def trimStep (g own site : Nat) (error : Int) : Int := ((error * own).tdiv site).tdiv ((2 : Int) ^ g)

/-- `x` held within a bound either way (R136). -/
def heldWithin (bound : Nat) (x : Int) : Int := max (-(bound : Int)) (min bound x)

/-- P and the stored accumulator by the back-calculation (R137). -/
def backCalculate (own base : Nat) (q : Int) : Nat × Int :=
  let raw := (base : Int) + q
  if (own : Int) < raw then (own, (own : Int) - base)
  else if raw < 0 then (0, -(base : Int))
  else (raw.toNat, q)

/-- The minimum flow stage (R138). -/
def minFlow (fmin own p : Nat) : Nat :=
  if 0 < p ∧ p < fmin then (if fmin ≤ 2 * p ∧ fmin ≤ own then fmin else 0) else p

/-- P and Q by R133 to R137, before the minimum flow stage. -/
def trimmed (c : StationCfg) (d : Dir) (i : ShareIn) : Nat × Int :=
  let own := ownAvail d i
  let site := siteAvail d i
  let base := baseShare i.target.natAbs own site
  if trimApplies d i.dirState site then
    let error := (i.target.natAbs : Int) - siteFlow d i
    backCalculate own base (heldWithin (own / 4) (i.q + trimStep c.trimShift own site error))
  else (base, 0)

/-- One run of the computation, stage by stage (R125 to R138). -/
def shareCompute (c : StationCfg) (i : ShareIn) : ShareOut :=
  let d := shareDir c.deadband i.target
  { d := d
    aInj := shareAInj i
    aWd := shareAWd i
    q := (trimmed c d i).2
    p := minFlow c.fmin (ownAvail d i) (trimmed c d i).1 }

/-- The inputs of a share cycle, each as its owner holds it (R125). -/
def shareInputs (s : State) : ShareIn :=
  { target := siteTarget s.accounts
    cavernInj := cavernInj s
    cavernWd := cavernWd s
    cAvail := cAvail s
    dAvail := dAvail s.cfg.dryer s.dryer
    peers := (freshRecs s.roster).map (fun r => r.last)
    ownFlow := s.meter.flow
    dirState := s.direction.state
    running := decide (s.startup.station = .running)
    q := s.share.q }

/-! ### STATUS (R55 to R60) -/

/-- The STATUS of a share cycle, each field as its owner holds it (R56, R57, R58). -/
def assembleStatus (s : State) : StatusFields :=
  { dirCode := BitVec.ofNat 8 (dirCode s.direction.state s.direction.remembered)
    flags := statusFlags s
    aInj := s.share.lastAInj
    aWd := s.share.lastAWd
    flow := s.meter.flow
    p := s.share.lastP
    openSeq := s.accounts.openSeq
    digest := digest s.accounts
    signature := s.startup.signature }

/-- The STATUS offered to the transmit queue (R30, R32, R55). -/
def sendStatus (s : State) : State :=
  s.withLink (offerStatus (statusPayload (assembleStatus s)) s.link)

/-! ### The outputs (R118, R139, R140, R141) -/

/-- The outputs stored, DRYER_LIMIT with the read of D_avail, and P with d delivered (R118, R139). -/
def storeShare (o : ShareOut) (s : State) : State :=
  ((s.withDryer { s.dryer with limit := taperApplies s.cfg.dryer s.dryer }).withShare
      { s.share with q := o.q, lastP := o.p, lastAInj := o.aInj, lastAWd := o.aWd }).withInbox
    { s.inbox with deliveries := s.inbox.deliveries ++ [(o.p, o.d)] }

/-- One share cycle: the computation, its outputs, the train's judgement of the new P, the STATUS (R125,
R139, R140, R141; log 19). -/
def runShare (s : State) : State :=
  sendStatus (judgeDuty (storeShare (shareCompute s.cfg.station (shareInputs s)) s))

/-- A share cycle timer expiry (R124). -/
def shareCycle (s : State) : State :=
  whenActive s fun s => if s.share.timer.isRunning then runShare s else s

/-- SHARE_CYCLE (R125). -/
def execShareCycle (s : State) : Host.Outcome State Fault Refusal := .next (shareCycle s)

end Sys2Proof.Machine
end

