-- ==== Sys2Proof/Machine/Queries.lean ====
section
/-! DEFINITION. The Query Responder (R197 to R201, R53, R11): one REPORT for each QUERY. -/

namespace Sys2Proof.Machine

/-! ### The replies -/

/-- The reply to ACCOUNT (R198, R201). -/
def accountReply (code : Nat) (s : State) : List Byte :=
  match lookup s.accounts code with
  | some i => accountPayload (s.accounts.acc i)
  | none => notFoundPayload 1 0 24 (putU 2 code)

/-- The reply to ENTRY (R198, R201). -/
def entryReply (role : TableRole) (code : Nat) (s : State) : List Byte :=
  match lookup s.accounts code with
  | some i => entryPayload role code (s.accounts.entry (s.accounts.roleOf role) i)
  | none => notFoundPayload 2 (tableRoleCode role) 22 (putU 2 code)

/-- The reply to PEER (R53, R199, R201). -/
def peerReply (address : Nat) (s : State) : List Byte :=
  if 1 ≤ address ∧ address ≤ 32 then peerPayload address (peerRec s.roster address)
  else notFoundPayload 3 0 24 (putU 1 address)

/-- The reply to QUANTITY (R199, R201). -/
def quantityReply (id : Nat) (s : State) : List Byte :=
  match qtyOf id with
  | some q => quantityPayload q (s.qty q)
  | none => notFoundPayload 4 0 5 (putU 1 id)

/-- The reply to LINES (R11, R199). -/
def linesReply (s : State) : List Byte := linesPayload (reportedLevels s)

/-- The mark byte of a STATION reply: direction state in bits 0 to 3, station state in bits 4 to 6
(R41). -/
def stationMark (s : State) : Nat :=
  dirCode s.direction.state s.direction.remembered + 16 * stationCode s.startup.station

/-- The tower states byte: A in bits 4 to 7, B in bits 0 to 3 (R41). -/
def towerStates (d : Dryer) : Nat := 16 * towerStateCode d.a.state + towerStateCode d.b.state

/-- A tower's load in units of 100 g (R41, R200). -/
def loadUnits (r : TowerRec) : Int := r.load.tdiv 100000

/-- The cavern inventory in Sm³ (R41, R200). -/
def inventorySm3 (s : State) : Int := (cavernInventory s).tdiv 1000

/-- The run hours of a unit (R102, R200). -/
def runHours (r : UnitRec) : Nat := r.runSeconds / 3600

/-- The reply to STATION (R41, R200). -/
def stationReply (s : State) : List Byte :=
  putU 1 6 ++ putU 1 (stationMark s) ++ putU 3 s.direction.r ++ putS 3 s.share.q ++
  putS 4 (inventorySm3 s) ++ putU 3 (runHours s.compressor.u1) ++ putU 3 (runHours s.compressor.u2) ++
  putU 1 (towerStates s.dryer) ++ putU 2 (loadUnits s.dryer.a) ++ putU 2 (loadUnits s.dryer.b)

/-! ### Taking a QUERY (R197) -/

/-- The Query Responder takes its oldest frame when `reply` answers its query, and offers the reply
(R35, R197). -/
def takeQuery (s : State) (reply : Query → Option (State → List Byte)) : State :=
  takeBy .queryResponder s fun f =>
    match f.body with
    | .query q => (reply q).map (fun form => fun t => offerReport (selectorCode q) (form t) t)
    | _ => none

/-! ### The commands -/

/-- QUERY_ACCOUNT (R198). -/
def execQueryAccount (s : State) : Host.Outcome State Fault Refusal :=
  .next (takeQuery s fun q =>
    match q with
    | .account code => some (accountReply code)
    | _ => none)

/-- QUERY_ENTRY (R198). -/
def execQueryEntry (s : State) : Host.Outcome State Fault Refusal :=
  .next (takeQuery s fun q =>
    match q with
    | .entry role code => some (entryReply role code)
    | _ => none)

/-- QUERY_PEER (R53). -/
def execQueryPeer (s : State) : Host.Outcome State Fault Refusal :=
  .next (takeQuery s fun q =>
    match q with
    | .peer address => some (peerReply address)
    | _ => none)

/-- QUERY_QUANTITY (R199). -/
def execQueryQuantity (s : State) : Host.Outcome State Fault Refusal :=
  .next (takeQuery s fun q =>
    match q with
    | .quantity id => some (quantityReply id)
    | _ => none)

/-- QUERY_LINES (R11). -/
def execQueryLines (s : State) : Host.Outcome State Fault Refusal :=
  .next (takeQuery s fun q =>
    match q with
    | .lines => some linesReply
    | _ => none)

/-- QUERY_STATION (R200). -/
def execQueryStation (s : State) : Host.Outcome State Fault Refusal :=
  .next (takeQuery s fun q =>
    match q with
    | .station => some stationReply
    | _ => none)

end Sys2Proof.Machine
end

