-- ==== Sys2Proof/Machine/Dispatch.lean ====
section
/-! DEFINITION. One arm for each command: a direct call of its meaning. -/

namespace Sys2Proof.Machine

def exec (i : Instr) (s : State) : Host.Outcome State Fault Refusal :=
  match i with
  | .reset => Sys2Proof.Machine.execReset s
  | .resetEnd => Sys2Proof.Machine.execResetEnd s
  | .configHeaderTaken b0 b1 b2 => Sys2Proof.Machine.execConfigHeaderTaken b0 b1 b2 s
  | .configImageRead rest => Sys2Proof.Machine.execConfigImageRead rest s
  | .listeningTimerExpiry => Sys2Proof.Machine.execListeningTimerExpiry s
  | .startClockTick => Sys2Proof.Machine.execStartClockTick s
  | .senseLevelChange line high => Sys2Proof.Machine.execSenseLevelChange line high s
  | .stabilityTimerExpiry line => Sys2Proof.Machine.execStabilityTimerExpiry line s
  | .countPulse line high => Sys2Proof.Machine.execCountPulse line high s
  | .pwmPeriodStart => Sys2Proof.Machine.execPwmPeriodStart s
  | .scanTimerExpiry => Sys2Proof.Machine.execScanTimerExpiry s
  | .startTransactionEnd => Sys2Proof.Machine.execStartTransactionEnd s
  | .conversionWaitExpiry => Sys2Proof.Machine.execConversionWaitExpiry s
  | .readTransactionEnd reply => Sys2Proof.Machine.execReadTransactionEnd reply s
  | .linkTxStart recessive => Sys2Proof.Machine.execLinkTxStart recessive s
  | .arbitrationLoss bit => Sys2Proof.Machine.execArbitrationLoss bit s
  | .collision => Sys2Proof.Machine.execCollision s
  | .frameSent => Sys2Proof.Machine.execFrameSent s
  | .frameReceive bytes => Sys2Proof.Machine.execFrameReceive bytes s
  | .frameBrokenOff => Sys2Proof.Machine.execFrameBrokenOff s
  | .statusTake => Sys2Proof.Machine.execStatusTake s
  | .silenceTimerExpiry peer => Sys2Proof.Machine.execSilenceTimerExpiry peer s
  | .mark => Sys2Proof.Machine.execMark s
  | .nominate => Sys2Proof.Machine.execNominate s
  | .setup => Sys2Proof.Machine.execSetup s
  | .balance => Sys2Proof.Machine.execBalance s
  | .retire => Sys2Proof.Machine.execRetire s
  | .clearTrip => Sys2Proof.Machine.execClearTrip s
  | .clearUnit => Sys2Proof.Machine.execClearUnit s
  | .clearTower => Sys2Proof.Machine.execClearTower s
  | .queryAccount => Sys2Proof.Machine.execQueryAccount s
  | .queryEntry => Sys2Proof.Machine.execQueryEntry s
  | .queryPeer => Sys2Proof.Machine.execQueryPeer s
  | .queryQuantity => Sys2Proof.Machine.execQueryQuantity s
  | .queryLines => Sys2Proof.Machine.execQueryLines s
  | .queryStation => Sys2Proof.Machine.execQueryStation s
  | .shareCycle => Sys2Proof.Machine.execShareCycle s
  | .eventAdmission => Sys2Proof.Machine.execEventAdmission s
  | .closingReportAdmission => Sys2Proof.Machine.execClosingReportAdmission s
  | .meterInterval => Sys2Proof.Machine.execMeterInterval s
  | .accountIncrementTake => Sys2Proof.Machine.execAccountIncrementTake s
  | .fuelIncrementTake => Sys2Proof.Machine.execFuelIncrementTake s
  | .dryerIncrementTake => Sys2Proof.Machine.execDryerIncrementTake s
  | .unexpectedMarkClear => Sys2Proof.Machine.execUnexpectedMarkClear s
  | .historyTimerExpiry => Sys2Proof.Machine.execHistoryTimerExpiry s
  | .startTimeoutExpiry u => Sys2Proof.Machine.execStartTimeoutExpiry u s
  | .runFeedbackAssertion u => Sys2Proof.Machine.execRunFeedbackAssertion u s
  | .runFeedbackRelease u => Sys2Proof.Machine.execRunFeedbackRelease u s
  | .faultInputAssertion u => Sys2Proof.Machine.execFaultInputAssertion u s
  | .faultInputRelease u => Sys2Proof.Machine.execFaultInputRelease u s
  | .runClockExpiry u => Sys2Proof.Machine.execRunClockExpiry u s
  | .minimumRunExpiry u => Sys2Proof.Machine.execMinimumRunExpiry u s
  | .minimumStopExpiry u => Sys2Proof.Machine.execMinimumStopExpiry u s
  | .cooldownExpiry u => Sys2Proof.Machine.execCooldownExpiry u s
  | .startDwellExpiry => Sys2Proof.Machine.execStartDwellExpiry s
  | .stopDwellExpiry => Sys2Proof.Machine.execStopDwellExpiry s
  | .trainDirectionChange => Sys2Proof.Machine.execTrainDirectionChange s
  | .halfHeatPoint t => Sys2Proof.Machine.execHalfHeatPoint t s
  | .heatTimeExpiry t => Sys2Proof.Machine.execHeatTimeExpiry t s
  | .coolTimeExpiry t => Sys2Proof.Machine.execCoolTimeExpiry t s
  | .dewOutUpdate => Sys2Proof.Machine.execDewOutUpdate s
  | .dryerRunningEntry => Sys2Proof.Machine.execDryerRunningEntry s
  | .shareDelivery => Sys2Proof.Machine.execShareDelivery s
  | .compressorNotice => Sys2Proof.Machine.execCompressorNotice s
  | .valveFeedbackChange fb => Sys2Proof.Machine.execValveFeedbackChange fb s
  | .estopInAssertion => Sys2Proof.Machine.execEstopInAssertion s
  | .estopInRelease => Sys2Proof.Machine.execEstopInRelease s
  | .clearInAssertion => Sys2Proof.Machine.execClearInAssertion s
  | .lineupTimerExpiry => Sys2Proof.Machine.execLineupTimerExpiry s
  | .holdTimerExpiry => Sys2Proof.Machine.execHoldTimerExpiry s
  | .rampStep => Sys2Proof.Machine.execRampStep s
  | .closeTimerExpiry => Sys2Proof.Machine.execCloseTimerExpiry s
  | .settleTimerExpiry => Sys2Proof.Machine.execSettleTimerExpiry s
  | .directionRunningEntry => Sys2Proof.Machine.execDirectionRunningEntry s
  | .periodTimerExpiry => Sys2Proof.Machine.execPeriodTimerExpiry s
  | .graceTimerExpiry => Sys2Proof.Machine.execGraceTimerExpiry s
  | .headerLengthAbove24 h0 h1 => Sys2Proof.Machine.execHeaderLengthAbove24 h0 h1 s
  | .startBitAfterIdle => Sys2Proof.Machine.execStartBitAfterIdle s

end Sys2Proof.Machine
end

