-- ==== Sys2Proof/Machine/Step.lean ====
section
/-! DEFINITION. One step of the part: the command at the front of the queue is taken, with the queue's
rest in place (log 3: an empty queue idles). -/

namespace Sys2Proof.Machine

/-- One step. -/
def step (s : State) : Host.Outcome State Fault Refusal :=
  match s.pending with
  | [] => .next s
  | c :: rest => exec c (s.withPending rest)

/-- `s` with a command at the front of its queue. -/
def State.withCommand (s : State) (c : Instr) : State := s.withPending (c :: s.pending)

/-- `s` with the command that a word spells at the front of its queue; `s` where it spells none. -/
def State.withFetchWord (s : State) (nbits w : Nat) : State :=
  match decodeTableWord nbits w with
  | some c => s.withCommand c
  | none => s

end Sys2Proof.Machine
end

