-- ==== Sys2Proof/Machine/Pins.lean ====
section
/-! DEFINITION. The pins of R211 beside the field lines, whose pins are `pinDrive` (Lines.lean): the level
at each, true for high. RESET is low while `startup.held`: its edges are the commands RESET and RESET_END. -/

namespace Sys2Proof.Machine

/-- READY is high in LISTENING and RUNNING and low in every other station state (R202, R211). -/
def readyPin (s : State) : Bool := s.active

/-- SSEL0 to SSEL3, active low (R211): the select line asserted on the sensor line is low (R12). -/
def selectPin (s : State) (n : Nat) : Bool := !decide (assertedSelect s.scanner = some n)

/-- CSEL, active low (R203, R211). -/
def cselPin (s : State) : Bool := !s.startup.csel

/-! ### SCK and SDO, which the sensor line and the memory line share (R12, R203)

In LISTENING and RUNNING the wires carry the sensor line's transaction, elsewhere the memory read while CSEL
is asserted. Bit times count from the first bit of the transaction under way; which one has come is not held
in State (log 14). -/

/-- The bytes that the transaction under way clocks out. -/
def clockedOut (s : State) : List Byte :=
  if s.active then
    match runningTransaction s.scanner with
    | none => []
    | some t => t.bytesOut
  else if s.startup.csel then s.startup.memoryOut
  else []

/-- SDO in bit time `i`: the bytes clocked out, each most significant bit first, a 1 as high; none where no
bit is clocked out, for which the spec gives no level (R12, R203; log 34). -/
def sdoPin (s : State) (i : Nat) : Option Bool := ((clockedOut s).flatMap byteBits)[i]?

/-- A bit clock that runs for so many bytes, eight bits each, and is idle after them. -/
def clockFor (period bytes i : Nat) : Option Nat := if i < 8 * bytes then some period else none

/-- SCK in bit time `i`: the period of a bit in eighths of a microsecond, none where the clock is idle. The
sensor line's clock is 8 MHz divided by the configured divide (R12), the memory's 1 MHz (R203). -/
def sckPeriod (s : State) (i : Nat) : Option Nat :=
  if s.active then
    match runningTransaction s.scanner with
    | none => none
    | some t => clockFor s.cfg.clockDivide t.bytesOut.length i
  else if s.startup.csel then clockFor 8 (memoryReadBytes s.startup.load) i
  else none

/-! ### LTX and LRX -/

/-- The level that stands for a bit of the pad link, as LTX sends it and as LRX reads it: low for a
dominant bit, which is false in `lineBits`, and high for a recessive one (R211). -/
def linkLevel : Bool → Bool
  | false => false
  | true => true

/-- LTX in bit time `i` of the frame in transmission, its start bit's being 0 (R20, R210, R211): the level
of its bit; high, so recessive, after its last bit and where no frame is in transmission (R36). Which bit
time has come is not held in State (log 14). -/
def ltxPin (s : State) (i : Nat) : Bool :=
  match s.link.sending with
  | none => linkLevel true
  | some bytes => linkLevel ((lineBits bytes).getD i true)

end Sys2Proof.Machine
end

