-- ==== Sys2Proof/WellFormed.lean ====
section
/-! DEFINITION. Which commands name something that exists: a field line (R2), a peer record (R44), a
reply of 3 or 4 bytes (R13), a kind or sender bit (R23), a frame whose byte count is the one its
header gives (R20), a header whose length is above 24 (R25), an image body (R203). -/

namespace Sys2Proof

/-- The length field of a header: the lower six bits of its second byte (R20, R21). -/
def headerLength (h1 : Byte) : Nat := h1.toNat % 64

/-- A list of bytes that a complete frame may have: two header bytes, as many payload bytes as the
header's length field gives, at most 24, and the CRC byte (R20). -/
def frameBytesOk : List Byte → Bool
  | _ :: h1 :: rest => decide (headerLength h1 ≤ 24) && decide (rest.length = headerLength h1 + 1)
  | _ => false

/-- A command is well formed when every operand names something the spec gives the part. -/
def Instr.wf : Instr → Bool
  | .configImageRead rest => decide (61 ≤ rest.length) && decide (rest.length ≤ 4093)
  | .senseLevelChange line _ => decide (1 ≤ line) && decide (line ≤ 24)
  | .stabilityTimerExpiry line => decide (1 ≤ line) && decide (line ≤ 24)
  | .countPulse line _ => decide (1 ≤ line) && decide (line ≤ 24)
  | .readTransactionEnd reply => decide (reply.length = 3) || decide (reply.length = 4)
  | .arbitrationLoss bit => decide (bit < 10)
  | .frameReceive bytes => frameBytesOk bytes
  | .silenceTimerExpiry peer => decide (1 ≤ peer) && decide (peer ≤ 32)
  | .headerLengthAbove24 _ h1 => decide (24 < headerLength h1)
  | .reset => true
  | .resetEnd => true
  | .configHeaderTaken _ _ _ => true
  | .listeningTimerExpiry => true
  | .startClockTick => true
  | .pwmPeriodStart => true
  | .scanTimerExpiry => true
  | .startTransactionEnd => true
  | .conversionWaitExpiry => true
  | .linkTxStart _ => true
  | .collision => true
  | .frameSent => true
  | .frameBrokenOff => true
  | .statusTake => true
  | .mark => true
  | .nominate => true
  | .setup => true
  | .balance => true
  | .retire => true
  | .clearTrip => true
  | .clearUnit => true
  | .clearTower => true
  | .queryAccount => true
  | .queryEntry => true
  | .queryPeer => true
  | .queryQuantity => true
  | .queryLines => true
  | .queryStation => true
  | .shareCycle => true
  | .eventAdmission => true
  | .closingReportAdmission => true
  | .meterInterval => true
  | .accountIncrementTake => true
  | .fuelIncrementTake => true
  | .dryerIncrementTake => true
  | .unexpectedMarkClear => true
  | .historyTimerExpiry => true
  | .startTimeoutExpiry _ => true
  | .runFeedbackAssertion _ => true
  | .runFeedbackRelease _ => true
  | .faultInputAssertion _ => true
  | .faultInputRelease _ => true
  | .runClockExpiry _ => true
  | .minimumRunExpiry _ => true
  | .minimumStopExpiry _ => true
  | .cooldownExpiry _ => true
  | .startDwellExpiry => true
  | .stopDwellExpiry => true
  | .trainDirectionChange => true
  | .halfHeatPoint _ => true
  | .heatTimeExpiry _ => true
  | .coolTimeExpiry _ => true
  | .dewOutUpdate => true
  | .dryerRunningEntry => true
  | .shareDelivery => true
  | .compressorNotice => true
  | .valveFeedbackChange _ => true
  | .estopInAssertion => true
  | .estopInRelease => true
  | .clearInAssertion => true
  | .lineupTimerExpiry => true
  | .holdTimerExpiry => true
  | .rampStep => true
  | .closeTimerExpiry => true
  | .settleTimerExpiry => true
  | .directionRunningEntry => true
  | .periodTimerExpiry => true
  | .graceTimerExpiry => true
  | .startBitAfterIdle => true

end Sys2Proof
end

