-- ==== Sys2Proof/Safety.lean ====
section
/-! DEFINITION. The vocabulary of statements about steps: which blocks a step leaves as they are, which
commands act while the station is not working, and the properties of State that every step keeps. -/

namespace Sys2Proof.Machine

/-! ### Frames -/

/-- The fields of State. -/
inductive Block where
  | startup
  | lines
  | scanner
  | link
  | roster
  | meter
  | compressor
  | dryer
  | share
  | direction
  | accounts
  | events
  | inbox
  | pending
deriving DecidableEq, Repr

/-- A block is the same in two states. -/
def SameBlock (s t : State) : Block → Prop
  | .startup => t.startup = s.startup
  | .lines => t.lines = s.lines
  | .scanner => t.scanner = s.scanner
  | .link => t.link = s.link
  | .roster => t.roster = s.roster
  | .meter => t.meter = s.meter
  | .compressor => t.compressor = s.compressor
  | .dryer => t.dryer = s.dryer
  | .share => t.share = s.share
  | .direction => t.direction = s.direction
  | .accounts => t.accounts = s.accounts
  | .events => t.events = s.events
  | .inbox => t.inbox = s.inbox
  | .pending => t.pending = s.pending

/-- Every block but the named ones is the same in `t` as in `s`. -/
def KeepsAllBut (changed : List Block) (s t : State) : Prop :=
  ∀ b : Block, b ∉ changed → SameBlock s t b

/-- The commands that act in a station state other than LISTENING and RUNNING: the reset and the image
read, the start clock, the pins' levels, and the receiver's place on the line (R4, R36, R193, R202,
R203). -/
def actsWhileInactive : Instr → Bool
  | .reset => true
  | .resetEnd => true
  | .configHeaderTaken _ _ _ => true
  | .configImageRead _ => true
  | .startClockTick => true
  | .senseLevelChange _ _ => true
  | .countPulse _ _ => true
  | .frameReceive _ => true
  | .frameBrokenOff => true
  | .headerLengthAbove24 _ _ => true
  | .startBitAfterIdle => true
  | _ => false

/-- Every field of State but the queue of waiting commands. -/
def everyBlock : List Block :=
  [.startup, .lines, .scanner, .link, .roster, .meter, .compressor, .dryer, .share, .direction,
   .accounts, .events, .inbox]

/-- What a command may change: its own block, the lines it requests, the events it posts, what it takes
from and delivers to other blocks (95_what_each_step_holds.md). -/
def touches : Instr → List Block
  | .reset | .statusTake => everyBlock
  | .resetEnd => [.startup, .events]
  | .configHeaderTaken _ _ _ => [.startup]
  | .configImageRead _ => [.startup, .lines, .scanner, .link, .meter, .compressor, .dryer, .share]
  | .listeningTimerExpiry => [.startup, .inbox]
  | .startClockTick => [.events]
  | .senseLevelChange _ _ | .countPulse _ _ | .pwmPeriodStart => [.lines]
  | .stabilityTimerExpiry _ => [.lines, .inbox]
  | .scanTimerExpiry => [.scanner, .events]
  | .startTransactionEnd | .conversionWaitExpiry => [.scanner]
  | .readTransactionEnd _ => [.scanner, .events, .inbox]
  | .linkTxStart _ | .arbitrationLoss _ | .frameSent | .frameReceive _ | .frameBrokenOff
  | .headerLengthAbove24 _ _ | .startBitAfterIdle => [.link]
  | .collision | .eventAdmission => [.link, .events]
  | .queryAccount | .queryEntry | .queryPeer | .queryQuantity | .queryLines | .queryStation =>
    [.link, .events]
  | .silenceTimerExpiry _ => [.roster, .events]
  | .mark | .nominate | .setup | .balance | .retire => [.link, .accounts, .events]
  | .clearTrip => [.link, .direction, .lines, .inbox, .events]
  | .clearUnit => [.link, .compressor, .lines, .inbox, .events]
  | .clearTower => [.link, .dryer, .lines, .events]
  | .shareCycle => [.share, .dryer, .inbox, .compressor, .lines, .link]
  | .closingReportAdmission => [.link, .accounts]
  | .meterInterval => [.lines, .meter, .accounts, .inbox, .events]
  | .accountIncrementTake | .fuelIncrementTake | .periodTimerExpiry => [.accounts]
  | .graceTimerExpiry => [.accounts, .events]
  | .dryerIncrementTake | .dewOutUpdate | .dryerRunningEntry => [.inbox, .dryer, .lines, .events]
  | .unexpectedMarkClear => [.inbox, .meter]
  | .historyTimerExpiry => [.meter, .events]
  | .runClockExpiry _ => [.compressor]
  | .startTimeoutExpiry _ | .runFeedbackRelease _ | .faultInputAssertion _ =>
    [.compressor, .lines, .inbox, .events]
  | .runFeedbackAssertion _ | .faultInputRelease _ | .minimumRunExpiry _ | .minimumStopExpiry _
  | .cooldownExpiry _ | .startDwellExpiry | .stopDwellExpiry | .trainDirectionChange =>
    [.compressor, .lines, .inbox]
  | .halfHeatPoint _ | .coolTimeExpiry _ => [.dryer, .lines, .events]
  | .heatTimeExpiry _ => [.dryer, .lines]
  | .estopInRelease => [.inbox]
  | .shareDelivery | .compressorNotice | .valveFeedbackChange _ | .estopInAssertion
  | .clearInAssertion | .lineupTimerExpiry | .holdTimerExpiry | .rampStep | .closeTimerExpiry
  | .settleTimerExpiry | .directionRunningEntry => [.direction, .lines, .inbox, .events]

/-! ### What every step keeps -/

/-- The Link Controller's record is sound (R24, R28, R31, R32, R33): at most 8 frames queued, one STATUS
among them at most, 7 others at most, each with fewer than 16 collisions; two buffers; a frame in
transmission is the head of the queue; a held STATUS only while a STATUS is in transmission. -/
def LinkSound (l : Link) : Prop :=
  l.queue.length ≤ 8 ∧
  (l.queue.filter (fun f => decide (f.kind = .status))).length ≤ 1 ∧
  (l.queue.filter (fun f => decide (f.kind ≠ .status))).length ≤ 7 ∧
  (∀ f ∈ l.queue, f.collisions < 16) ∧
  l.buffers.length ≤ 2 ∧
  (l.sending ≠ none → l.queue ≠ []) ∧
  (l.hold ≠ none → statusInTransmission l = true)

/-- The Event Queue's record is sound (R193, R195): at most 10 records, EVENTS_LOST only while one
waits, the clock within its range. -/
def EventsSound (e : Events) : Prop :=
  e.queue.length ≤ 10 ∧ (e.lost = true → e.queue ≠ []) ∧ e.clock ≤ 4294967295

/-- The Dryer Unit's record and requests are sound (R105, R109): one tower is ON_LINE and its valve is
the one requested, the heater's owner is the HEATING tower, and the heater is requested for it. -/
def DryerSound (d : Dryer) (q : DriveReqs) : Prop :=
  (d.a.state = .onLine ↔ d.b.state ≠ .onLine) ∧
  (d.a.state = .heating ↔ d.heater = some .a) ∧
  (d.b.state = .heating ↔ d.heater = some .b) ∧
  q.twrA = decide (d.a.state = .onLine) ∧
  q.twrB = decide (d.b.state = .onLine) ∧
  q.heater = d.heater.isSome

/-- A unit's run command is requested in STARTING and RUNNING and in no other state (R82). -/
def UnitsSound (c : Compressor) (q : DriveReqs) : Prop :=
  q.u1Run = onDuty c.u1.state ∧ q.u2Run = onDuty c.u2.state

/-- The direction toward which the pad's valves are commanded: a lineup's, a flowing state's, and a
rundown's while it ramps (R148, R160). -/
def valvesToward (d : Direction) : Option Flow :=
  match d.state with
  | .lineupInj => some .inj
  | .inject => some .inj
  | .lineupWd => some .wd
  | .withdraw => some .wd
  | .rundown => if d.phase = .ramp then some d.remembered else none
  | .idle => none
  | .tripped => none

/-- The three valve commands and TRIP_OUT are those of the direction state, and outside INJECT, WITHDRAW and
a ramping RUNDOWN, a lineup included, both R and the duty are 0 (R148, R153, R160, R162, R166). -/
def DirectionSound (d : Direction) (q : DriveReqs) : Prop :=
  q.whv = (valvesToward d).isSome ∧
  q.injv = decide (valvesToward d = some .inj) ∧
  q.wdv = decide (valvesToward d = some .wd) ∧
  q.tripOut = decide (d.state = .tripped) ∧
  (d.cause = none ↔ d.state ≠ .tripped) ∧
  d.duty ≤ 1000 ∧
  (d.state ≠ .inject → d.state ≠ .withdraw → ¬(d.state = .rundown ∧ d.phase = .ramp) →
    d.r = 0 ∧ d.duty = 0)

/-- A nomination, where it is present, lies within its account's right in its own direction (R173). -/
def WithinRights (r : AccRec) (e : Entry) : Prop :=
  ∀ n ∈ e.nomination, -(r.wdRight : Int) ≤ n ∧ n ≤ (r.injRight : Int)

/-- The indices of a chain from an index on, each record's link followed, at most `n` of them (R170). -/
def chainFrom (recs : List AccRec) : Nat → Option Nat → List Nat
  | 0, _ => []
  | _ + 1, none => []
  | n + 1, some i => i :: chainFrom recs n (recs.getD i AccRec.blank).link

/-- The chain of a bucket. A chain without a repeated index ends within 48 (R170, R171). -/
def chainOf (a : Accounts) (bucket : Nat) : List Nat :=
  chainFrom a.recs 49 (a.buckets.getD bucket none)

/-- The bucket chains and the free-index stack are sound (R169, R170, R171): each index 1 to 48 is present or
on the stack, never both; each chain holds present shippers of its bucket, none twice; each present
shipper is in its bucket's chain, and lookup of its code gives its own index. -/
def ChainsSound (a : Accounts) : Prop :=
  a.buckets.length = 16 ∧
  (∀ i < 49, 1 ≤ i → ((a.acc i).present = true ↔ i ∉ a.stack)) ∧
  (∀ b < 16, (chainOf a b).Nodup ∧ ∀ i ∈ chainOf a b,
    1 ≤ i ∧ i ≤ 48 ∧ (a.acc i).present = true ∧ (a.acc i).code ≠ 0 ∧ (a.acc i).code % 16 = b) ∧
  (∀ i < 49, 1 ≤ i → (a.acc i).present = true →
    i ∈ chainOf a ((a.acc i).code % 16) ∧ lookup a (a.acc i).code = some i)

/-- The Account Store's record is sound (R169 to R171, R173, R176, R182, R187): 49 records and three tables of
49 entries; the three roles on three tables; the chains and the stack of free indices; a free index held once,
its record without a code and without a nomination for the open or the next period; every nomination
for those two within its account's rights; the cursor active exactly while the CLOSED table reports, and a CLEAN
one cleared; at most one increment in each increment list. -/
def AccountsSound (a : Accounts) : Prop :=
  a.recs.length = 49 ∧ a.p0.length = 49 ∧ a.p1.length = 49 ∧ a.p2.length = 49 ∧
  a.openT ≠ a.pendingT ∧ a.pendingT ≠ a.closedT ∧ a.closedT ≠ a.openT ∧
  (a.acc 0).code = 0 ∧ (a.acc 0).present = true ∧
  ChainsSound a ∧
  a.stack.Nodup ∧
  (∀ i ∈ a.stack, 1 ≤ i ∧ i ≤ 48 ∧ (a.acc i).code = 0 ∧
    (a.entry a.openT i).nomination = none ∧ (a.entry a.pendingT i).nomination = none) ∧
  (∀ i < 49, WithinRights (a.acc i) (a.entry a.openT i) ∧ WithinRights (a.acc i) (a.entry a.pendingT i)) ∧
  (a.reporting = true ↔ a.cursor ≠ none) ∧
  (a.reporting = false → a.table a.closedT = Entry.blankTable) ∧
  a.metered.length ≤ 1 ∧ a.fuel.length ≤ 1

/-- Outside LISTENING and RUNNING every block holds its reset values, but for what DUPLICATE leaves as it
stood or is not the station's: the configured run seconds, the tower records with the heater's owner and
their requests, the quantities' values, the receiver's place and the admission mark, the levels at the
pins, the start clock, and the Start-up Controller's record other than its timer (R4, R18, R36, R54, R64,
R101, R121, R145, R167, R191, R196, R209). In LOADING and CONFIG_FAULT those of the scanner, the link, the
units, the towers and the requests are at reset too (R202, R206). -/
def IdleAtReset (s : State) : Prop :=
  (s.active = false →
    s.startup.listening = .stopped ∧
    s.direction = Direction.reset ∧ s.accounts = Accounts.reset ∧ s.meter = Meter.reset ∧
    s.share = Share.reset ∧ s.roster = List.replicate 32 PeerRec.reset ∧ s.inbox = Inbox.empty ∧
    s.link = { Link.reset with rx := s.link.rx, mark := s.link.mark } ∧
    s.events = { Events.reset with clock := s.events.clock } ∧
    s.compressor = { Compressor.reset with
      u1 := { UnitRec.reset with runSeconds := s.compressor.u1.runSeconds }
      u2 := { UnitRec.reset with runSeconds := s.compressor.u2.runSeconds } } ∧
    s.scanner.timer = .stopped ∧ s.scanner.pass = none ∧
    (∀ q ∈ slotOrder, getQty s.scanner.quantities q =
      { QtyRec.reset with value := (getQty s.scanner.quantities q).value }) ∧
    s.lines.appliedDuty = 0 ∧
    (∀ r ∈ s.lines.recs, r = { LineRec.reset with pinHigh := r.pinHigh }) ∧
    s.lines.requests = { DriveReqs.reset with
      twrA := s.lines.requests.twrA, twrB := s.lines.requests.twrB
      heater := s.lines.requests.heater } ∧
    s.dryer = { Dryer.reset with a := s.dryer.a, b := s.dryer.b, heater := s.dryer.heater }) ∧
  (s.startup.station = .loading ∨ s.startup.station = .configFault →
    s.scanner = Scanner.reset ∧ s.link = Link.reset ∧ s.compressor = Compressor.reset ∧
    s.dryer = Dryer.reset ∧ s.lines.requests = DriveReqs.reset)

/-- The whole part is sound. -/
def Sound (s : State) : Prop :=
  LinkSound s.link ∧ EventsSound s.events ∧ DryerSound s.dryer s.lines.requests ∧
  UnitsSound s.compressor s.lines.requests ∧ DirectionSound s.direction s.lines.requests ∧
  AccountsSound s.accounts ∧ IdleAtReset s

end Sys2Proof.Machine
end

