-- ==== Sys2Proof/Certificates/Slice0/Obligations.lean ====
section
/-! DEFINITION. The statements for the provers. OBLIGATIONS.json cites for each the rules it rests on; a
docstring names the log entry where a clause is the model's own choice. -/

open Sys2Proof Sys2Proof.Machine

/-! ### Steps and commands -/

/-- A step takes the command at the front of the queue and is exec of it with the queue's rest in place;
on an empty queue the block idles (DESIGN CHOICE, log 3). -/
def Obligations.StepRunsTheFrontCommand : Prop :=
  (∀ (c : Instr) (rest : List Instr) (s : Machine.State),
    s.pending = c :: rest → step s = exec c { s with pending := rest }) ∧
  (∀ s : Machine.State, s.pending = [] → step s = .next s)

/-- The frame of every command: it changes no block but those that `touches` names for it, and never the
queue of waiting commands (the model's queue, log 3). -/
def Obligations.EveryCommandChangesOnlyItsBlocks : Prop :=
  (∀ (c : Instr) (s t : Machine.State), exec c s = .next t → KeepsAllBut (touches c) s t) ∧
  (∀ c : Instr, Block.pending ∉ touches c)

/-- Every well-formed command answers a next state in every state; the commands that name a line outside
1 to 24 or a peer outside 1 to 32 fault under that name (log 23). -/
def Obligations.EveryWellFormedCommandRuns : Prop :=
  (∀ (c : Instr) (s : Machine.State), c.wf = true → ∃ t, exec c s = .next t) ∧
  (∀ (n : Nat) (high : Bool) (s : Machine.State), (n = 0 ∨ 24 < n) →
    exec (.senseLevelChange n high) s = .fault (.noSuchLine n) ∧
    exec (.stabilityTimerExpiry n) s = .fault (.noSuchLine n) ∧
    exec (.countPulse n high) s = .fault (.noSuchLine n)) ∧
  (∀ (n : Nat) (s : Machine.State), (n = 0 ∨ 32 < n) →
    exec (.silenceTimerExpiry n) s = .fault (.noSuchPeer n))

/-- Outside LISTENING and RUNNING every well-formed command but those of `actsWhileInactive` changes
nothing (log 2). -/
def Obligations.CommandsRestOutsideListeningAndRunning : Prop :=
  ∀ (c : Instr) (s : Machine.State),
    s.startup.station ≠ .listening → s.startup.station ≠ .running →
    actsWhileInactive c = false → c.wf = true → exec c s = .next s

/-! ### Start-up -/

/-- RESET puts every block at its reset values, READY goes low and every field line's pin is
high-impedance; the levels at the pins and the waiting commands stand (log 28). -/
def Obligations.ResetPutsEveryBlockBack : Prop :=
  ∀ s : Machine.State, ∃ t, exec .reset s = .next t ∧
    t.startup = StartUp.reset ∧ t.scanner = Scanner.reset ∧ t.link = Link.reset ∧
    t.roster = List.replicate 32 PeerRec.reset ∧ t.meter = Meter.reset ∧
    t.compressor = Compressor.reset ∧ t.dryer = Dryer.reset ∧ t.share = Share.reset ∧
    t.direction = Direction.reset ∧ t.accounts = Accounts.reset ∧ t.events = Events.reset ∧
    t.inbox = Inbox.empty ∧ t.pending = s.pending ∧
    t.lines.requests = DriveReqs.reset ∧ t.lines.appliedDuty = 0 ∧
    (∀ (i : Nat) (r : LineRec), s.lines.recs[i]? = some r →
      t.lines.recs[i]? = some { LineRec.reset with pinHigh := r.pinHigh }) ∧
    readyPin t = false ∧ (∀ n : Nat, pinDrive t n = .highZ)

/-- The values that the spec gives for reset, block by block. Not stated, since they are the model's: the
held reset and the load phase (log 7), the pins' levels (log 8), the image (log 9), the values of the
quantity records (log 10), the receiver's place on the line (log 15), the train's last delivered direction
state (log 29) and the empty inbox (log 5). -/
def Obligations.ResetLeavesTheSpecValues : Prop :=
  let r := State.reset
  -- R202
  (r.startup.station = .loading ∧ r.startup.inUse = false ∧ r.startup.signature = 0 ∧
    r.startup.listening = .stopped) ∧
  -- R4, R7, R8, R9
  (r.lines.recs.length = 24 ∧
    (∀ l ∈ r.lines.recs, l.debounced = false ∧ l.stability = .stopped ∧ l.count = 0 ∧
      l.overRange = false) ∧
    r.lines.requests =
      { whv := false, injv := false, wdv := false, tripOut := false, u1Run := false, u2Run := false,
        twrA := true, twrB := false, heater := false } ∧
    r.lines.appliedDuty = 0) ∧
  -- R14, R18
  (r.scanner.timer = .stopped ∧ r.scanner.pass = none ∧
    (∀ q, (getQty r.scanner.quantities q).state = .none ∧ (getQty r.scanner.quantities q).fails = 0 ∧
      (getQty r.scanner.quantities q).lastGood = none)) ∧
  -- R28, R31, R32, R34, R36
  (r.link.buffers = [] ∧ r.link.overrun = false ∧ r.link.queue = [] ∧ r.link.hold = none ∧
    r.link.sending = none ∧ r.link.mark = .cursor) ∧
  -- R44
  (r.roster.length = 32 ∧ ∀ p ∈ r.roster, p.state = .absent ∧ p.last = StatusFields.zero ∧
    p.silence = .stopped ∧ p.disagree = false) ∧
  -- R63
  (r.meter =
    { residue := 0, net := 0, flow := 0, lastSign := .inj, unexpected := false, fuelTotal := 0,
      injCap := false, wdCap := false, ring := [], interval := .stopped, history := .stopped }) ∧
  -- R80
  (∀ u, r.compressor.unit u =
    { state := .off, fails := 0, runSeconds := 0, stateTimer := .stopped, runClock := .stopped,
      minRun := .stopped, minRunMark := false, minStop := .stopped, minStopMark := true,
      lag := false, passedOver := false }) ∧
  (r.compressor.lineup = false ∧ r.compressor.startDwell = .stopped ∧
    r.compressor.startMark = false ∧ r.compressor.stopDwell = .stopped ∧
    r.compressor.stopMark = false) ∧
  -- R103
  (r.dryer =
    { a := { state := .onLine, load := 0, residue := 0, regen := .stopped, halfMark := false }
      b := { state := .hold, load := 0, residue := 0, regen := .stopped, halfMark := false }
      heater := none, above := 0, below := 0, offSpec := true, limit := false }) ∧
  -- R123
  (r.share = { q := 0, lastP := 0, lastAInj := 0, lastAWd := 0, timer := .stopped }) ∧
  -- R146
  (r.direction =
    { state := .idle, remembered := .inj, phase := .ramp, r := 0, heldP := 0, heldD := .hold,
      heldCrun := 0, lineupFails := 0, lastFlow := none, settle := .stopped, settleMark := false,
      cause := none, lineupTimer := .stopped, holdTimer := .stopped, closeTimer := .stopped,
      rampTimer := .stopped, duty := 0 }) ∧
  -- R169, R170, R171
  (r.accounts.recs.length = 49 ∧
    (r.accounts.acc 0).present = true ∧ (r.accounts.acc 0).code = 0 ∧
    (r.accounts.acc 0).injRight = 0 ∧ (r.accounts.acc 0).wdRight = 0 ∧
    (r.accounts.acc 0).opening = 0 ∧ (r.accounts.acc 0).net = 0 ∧ (r.accounts.acc 0).fuel = 0 ∧
    (r.accounts.acc 0).offSpec = 0 ∧ (r.accounts.acc 0).link = none ∧
    (∀ i, 1 ≤ i → i ≤ 48 → (r.accounts.acc i).present = false) ∧
    r.accounts.buckets = List.replicate 16 none ∧
    r.accounts.stack = (List.range 48).map (fun i => i + 1)) ∧
  -- R176, R177, R182, R187
  ((∀ t i, r.accounts.entry t i =
      { nomination := none, curtailed := false, injected := 0, withdrawn := 0, fuel := 0,
        offSpec := 0 }) ∧
    r.accounts.openT = .p0 ∧ r.accounts.pendingT = .p1 ∧ r.accounts.closedT = .p2 ∧
    r.accounts.reporting = false ∧ r.accounts.sync = .unsynced ∧ r.accounts.openSeq = 0 ∧
    r.accounts.closedSeq = 0 ∧ r.accounts.period = .stopped ∧ r.accounts.grace = .stopped ∧
    r.accounts.cursor = none ∧ r.accounts.metered = [] ∧ r.accounts.fuel = []) ∧
  -- R193
  (r.events.queue = [] ∧ r.events.lost = false ∧ r.events.clock = 0)

/-- RESET_END starts LOADING with CSEL asserted, the read command 0x03 and the two-byte address 0 clocked out,
and the start clock at 0; a read of L bytes takes (3 + L + 1) × 8 µs; CONFIG_HEADER_TAKEN in LOADING goes
on reading at a length of 64 to 4,096 and format 1, and is CONFIG_FAULT with CSEL released otherwise;
START_CLOCK_TICK adds a second and holds at the largest value; LISTENING_TIMER_EXPIRY enters RUNNING and
delivers the entry to the Direction Controller and the Dryer Unit. The held reset and the load phase are
the model's (log 7). -/
def Obligations.ResetEndHeaderClockAndEntryToRunning : Prop :=
  (∀ s : Machine.State, s.startup.held = true →
    exec .resetEnd s = .next { s with
      startup := { s.startup with
        held := false, load := .header, csel := true, memoryOut := [0x03#8, 0#8, 0#8] }
      events := { s.events with clock := 0 } }) ∧
  (∀ len : Nat, imageReadMicros len = (3 + len + 1) * 8) ∧
  (∀ s : Machine.State, s.startup.held = false →
    exec .startClockTick s = .next { s with
      events := { s.events with clock := min 4294967295 (s.events.clock + 1) } }) ∧
  (∀ s : Machine.State, s.startup.station = .listening → s.startup.listening ≠ .stopped →
    exec .listeningTimerExpiry s = .next { s with
      startup := { s.startup with station := .running, listening := .stopped }
      inbox := { s.inbox with runningToDirection := true, runningToDryer := true } }) ∧
  (∀ (b0 b1 b2 : Byte) (s : Machine.State), s.startup.station = .loading → s.startup.load = .header →
     ((64 ≤ b0.toNat * 256 + b1.toNat ∧ b0.toNat * 256 + b1.toNat ≤ 4096 ∧ b2 = 1#8) →
       exec (.configHeaderTaken b0 b1 b2) s =
         .next { s with startup := { s.startup with load := .body b0 b1 b2 } }) ∧
     (¬(64 ≤ b0.toNat * 256 + b1.toNat ∧ b0.toNat * 256 + b1.toNat ≤ 4096 ∧ b2 = 1#8) →
       exec (.configHeaderTaken b0 b1 b2) s =
         .next { s with startup := { s.startup with
           station := .configFault, load := .ended, csel := false, memoryOut := [] } }))

/-- CONFIG_IMAGE_READ of the whole image: a failing image is CONFIG_FAULT and nothing else changes; a
passing one comes into force in LISTENING, in one act, in every block that takes it. -/
def Obligations.ImageReadEntersListeningOrConfigFault : Prop :=
  ∀ (b0 b1 b2 : Byte) (rest : List Byte) (s : Machine.State),
    s.startup.station = .loading → s.startup.load = .body b0 b1 b2 →
    rest.length + 3 = b0.toNat * 256 + b1.toNat →
    (checkImage (b0 :: b1 :: b2 :: rest) = none →
      exec (.configImageRead rest) s = .next { s with startup := { s.startup with
        station := .configFault, load := .ended, csel := false, memoryOut := [] } }) ∧
    (∀ img, checkImage (b0 :: b1 :: b2 :: rest) = some img →
      ∃ t, exec (.configImageRead rest) s = .next t ∧
        t.startup = { s.startup with
          station := .listening, load := .ended, csel := false, memoryOut := [], inUse := true, image := img
          signature := beWord ((b0 :: b1 :: b2 :: rest).drop (rest.length + 1))
          listening := .running (3 * (img.station.shareCycle * 1000)) } ∧
        (∀ (i : Nat) (c : LineCfg) (r : LineRec), img.lines[i]? = some c → s.lines.recs[i]? = some r →
          t.lines.recs[i]? = some { r with
            debounced := false
            stability :=
              if c.mode = .sense ∧ logical c.polarity r.pinHigh = true then .running img.debounce
              else .stopped
            count := 0
            overRange := false }) ∧
        t.lines.requests = s.lines.requests ∧ t.lines.appliedDuty = s.lines.appliedDuty ∧
        t.scanner.timer = .running 500 ∧ t.scanner.pass = none ∧
        (∀ q, getQty t.scanner.quantities q = { value := (getQty img.slots q).fallback
                                                state := .none, fails := 0, lastGood := none }) ∧
        t.link = { s.link with rx := .waiting } ∧
        t.meter = { s.meter with
          interval := .running 1000
          history := .running (img.station.historyInterval * 60000) } ∧
        t.compressor = { s.compressor with
          u1 := { s.compressor.u1 with runSeconds := img.compressor.hours1 * 3600 }
          u2 := { s.compressor.u2 with runSeconds := img.compressor.hours2 * 3600 } } ∧
        t.dryer = { s.dryer with
          a := { s.dryer.a with load := img.dryer.lmax * 1000 }
          b := { s.dryer.b with load := img.dryer.lmax * 1000 } } ∧
        t.share = { s.share with timer := .running (img.station.shareCycle * 1000) } ∧
        KeepsAllBut [.startup, .lines, .scanner, .link, .meter, .compressor, .dryer, .share] s t)

/-- An image that passes holds every field within its range and meets the conditions of checks 3 to 7, and
its CRC-16 is right. -/
def Obligations.PassingImageMeetsTheChecks : Prop :=
  ∀ (bytes : List Byte) (img : Image), checkImage bytes = some img →
    let st := img.station
    let co := img.compressor
    let dr := img.dryer
    let cv := img.curves
    -- check 1
    crc16 (bytes.take (bytes.length - 2)) = beWord (bytes.drop (bytes.length - 2)) ∧
    -- check 3: the fields with listed values, then the ranges of R123, R63, R147, R81, R104, R5 and R12
    (st.shareCycle ∈ [1, 2, 4, 8] ∧ img.periodMinutes ∈ [15, 30, 60]) ∧
    (∀ lo x hi : Nat, (lo, x, hi) ∈
      [(0, st.deadband, 65535), (1, st.trimShift, 4), (0, st.fmin, 200000), (1, st.winj, 2000000),
        (1, st.wwd, 2000000), (1, st.pmin, 2500), (1, st.pmax, 2500),
        (0, st.baseInventory, 1000000000000), (1, st.historyInterval, 60), (1, st.riseLimit, 2500),
        (1, st.fallLimit, 2500), (1, st.lpp, 65535), (1, st.fuelPerPulse, 4095), (1, st.alpha, 32),
        (100, st.deltaMax, 500000), (1000, st.rfull, 2000000), (10, st.holdTime, 600),
        (0, st.settleTime, 1800), (10, st.lineupTimeout, 300), (10, st.closeTimeout, 300)] ++
      [(10, co.startTimeout, 300), (10, co.cooldown, 600), (0, co.minRun, 3600), (0, co.minStop, 1800),
        (0, co.hours1, 200000), (0, co.hours2, 200000), (32, co.startThreshold, 64),
        (16, co.stopThreshold, 60), (5, co.startDwell, 600), (5, co.stopDwell, 1800)] ++
      [(100, dr.lmax, 1000000), (1, dr.dmax, 2000000), (10, dr.heatTime, 480), (10, dr.coolTime, 480),
        (2330, dr.regenTarget, 6230), (1, dr.dewHysteresis, 100)] ++
      [(1, img.ownAddress, 32), (5, img.grace, 120), (4, img.debounce, 64), (2, img.clockDivide, 256)] →
      lo ≤ x ∧ x ≤ hi) ∧
    (-600 ≤ dr.dewLimit ∧ dr.dewLimit ≤ 400) ∧
    (1 ≤ img.terminals.length ∧ img.terminals.length ≤ 4 ∧ img.terminals.Nodup ∧
      ∀ a ∈ img.terminals, 48 ≤ a ∧ a ≤ 63) ∧
    -- check 3, the values of R61, and check 4
    (∀ (c : Curve) (xlo xhi ylo yhi : Nat), (c, xlo, xhi, ylo, yhi) ∈
      [(cv.wd, 1, 2500, 0, 2000000), (cv.inj, 1, 2500, 0, 2000000), (cv.unit, 0, 160000, 0, 2000000),
        (cv.zc, 1, 2500, 512, 1100), (cv.water, 2330, 3730, 0, 10000)] →
      2 ≤ c.points.length ∧ c.points.length ≤ 16 ∧
      (∀ p ∈ c.points, xlo ≤ p.1 ∧ p.1 ≤ xhi ∧ ylo ≤ p.2 ∧ p.2 ≤ yhi) ∧
      ∀ i a b, c.points[i]? = some a → c.points[i + 1]? = some b → a.1 < b.1) ∧
    -- check 5
    (img.lines.length = 24 ∧
      (∀ r : Role, r ≠ .spare → (img.lines.filter (fun c => decide (c.role = r))).length = 1) ∧
      (img.lines.filter (fun c => decide (c.role = .spare))).length = 2 ∧
      ∀ c ∈ img.lines,
        (c.role ∈ [Role.meterPulse, .fuelPulse] → c.mode = .count) ∧
        (c.role = .demandOut → c.mode = .pwm) ∧
        (c.role ∈ [Role.whvCmd, .injvCmd, .wdvCmd, .tripOut, .u1RunCmd, .u2RunCmd, .twrACmd, .twrBCmd,
          .heaterCmd] → c.mode = .odDrive ∨ c.mode = .ppDrive) ∧
        (c.role ∈ [Role.whvOpenFb, .whvClosedFb, .injvFb, .wdvFb, .estopIn, .clearIn, .u1RunFb, .u2RunFb,
          .u1FaultIn, .u2FaultIn] → c.mode = .sense) ∧
        (c.role = .spare → c.mode = .sense ∨ c.mode = .odDrive ∨ c.mode = .ppDrive)) ∧
    -- check 6, with the ranges of R13
    (∀ q, q ≠ .regenT → (getQty img.slots q).fitted = true) ∧
    (∀ q, (qtyRange q).1 ≤ (getQty img.slots q).fallback ∧
      (getQty img.slots q).fallback ≤ (qtyRange q).2 ∧
      ((getQty img.slots q).replyLength = 3 ∨ (getQty img.slots q).replyLength = 4) ∧
      (getQty img.slots q).select ≤ 3 ∧
      1 ≤ (getQty img.slots q).conversionWait ∧ (getQty img.slots q).conversionWait ≤ 100 ∧
      1 ≤ (getQty img.slots q).startRequest.length ∧ (getQty img.slots q).startRequest.length ≤ 4 ∧
      1 ≤ (getQty img.slots q).readRequest.length ∧ (getQty img.slots q).readRequest.length ≤ 4) ∧
    (qtyRange .wellP = (1, 2500) ∧ qtyRange .wellT = (2330, 3730) ∧ qtyRange .lineP = (1, 1200) ∧
      qtyRange .dewOut = (-600, 400) ∧ qtyRange .regenT = (2330, 6230)) ∧
    -- check 7
    st.pmin < st.pmax ∧ st.fmin ≤ st.winj ∧ st.fmin ≤ st.wwd ∧
    co.stopThreshold + 4 ≤ co.startThreshold

/-- STATUS_TAKE of a STATUS with the duplicate mark: DUPLICATE in LISTENING, with every block set back by
its own rule; DUP_ADDRESS with the own address in RUNNING. That the receiver's place on the line and the
admission mark stand is the model's (log 31), and the empty inbox (log 5). -/
def Obligations.DuplicateStatusByStationState : Prop :=
  ∀ (f : RxFrame) (fields : StatusFields) (rest : List RxFrame) (s : Machine.State),
    takeFrame .peerRoster s.link.buffers = some (f, rest) → f.body = .status fields → f.dup = true →
    (s.startup.station = .listening →
      ∃ t, exec .statusTake s = .next t ∧
        t.startup = { s.startup with station := .duplicate, listening := .stopped } ∧
        (∀ i : Nat, t.lines.recs[i]? = (s.lines.recs[i]?).map (fun r =>
          { r with debounced := false, stability := .stopped, count := 0, overRange := false })) ∧
        t.lines.appliedDuty = 0 ∧
        t.lines.requests = { s.lines.requests with
          whv := false, injv := false, wdv := false, tripOut := false, u1Run := false, u2Run := false } ∧
        t.scanner.timer = .stopped ∧ t.scanner.pass = none ∧
        (∀ q, getQty t.scanner.quantities q = { value := (getQty s.cfg.slots q).fallback
                                                state := .none, fails := 0, lastGood := none }) ∧
        t.link = { s.link with
          buffers := [], overrun := false, queue := [], hold := none, sending := none } ∧
        t.roster = List.replicate 32 PeerRec.reset ∧ t.meter = Meter.reset ∧
        t.compressor = { Compressor.reset with
          u1 := { UnitRec.reset with runSeconds := s.cfg.compressor.hours1 * 3600 }
          u2 := { UnitRec.reset with runSeconds := s.cfg.compressor.hours2 * 3600 } } ∧
        t.dryer = { s.dryer with above := 0, below := 0, offSpec := true, limit := false } ∧
        t.share = Share.reset ∧ t.direction = Direction.reset ∧ t.accounts = Accounts.reset ∧
        t.events = { s.events with queue := [], lost := false } ∧ t.inbox = Inbox.empty ∧
        t.pending = s.pending) ∧
    (s.startup.station = .running →
      exec .statusTake s =
        .next (post .dupAddress s.cfg.ownAddress { s with link := { s.link with buffers := rest } }))

/-! ### Field lines -/

/-- SENSE_LEVEL_CHANGE and STABILITY_TIMER_EXPIRY of a SENSE line: the stability timer, the debounced
level, and the delivery of its change to the role's owner; a role's level is its line's debounced level.
That a SPARE line's change and a release of CLEAR_IN wait for no one is the model's (log 16), as are the
operands (log 17) and the list of deliveries (log 5). -/
def Obligations.SensedLinesAreDebouncedAndDelivered : Prop :=
  (∀ (n : Nat) (high : Bool) (c : LineCfg) (s : Machine.State), s.active = true → 1 ≤ n → n ≤ 24 →
    lineCfg? s.cfg n = some c → c.mode = .sense → (s.lines.lineRec n).pinHigh ≠ high →
    exec (.senseLevelChange n high) s = .next { s with
      lines := s.lines.setRec n { s.lines.lineRec n with
        pinHigh := high
        stability :=
          if logical c.polarity high = (s.lines.lineRec n).debounced then .stopped
          else .running s.cfg.debounce } }) ∧
  (∀ (n : Nat) (c : LineCfg) (s : Machine.State), s.active = true → 1 ≤ n → n ≤ 24 →
    lineCfg? s.cfg n = some c → c.mode = .sense → (s.lines.lineRec n).stability ≠ .stopped →
    logical c.polarity (s.lines.lineRec n).pinHigh ≠ (s.lines.lineRec n).debounced →
    exec (.stabilityTimerExpiry n) s = .next { s with
      lines := s.lines.setRec n { s.lines.lineRec n with
        debounced := logical c.polarity (s.lines.lineRec n).pinHigh, stability := .stopped }
      inbox :=
        if c.role = .spare ∨
            (c.role = .clearIn ∧ logical c.polarity (s.lines.lineRec n).pinHigh = false) then s.inbox
        else { s.inbox with lineChanges := s.inbox.lineChanges ++
          [(c.role, logical c.polarity (s.lines.lineRec n).pinHigh)] } }) ∧
  (∀ (n : Nat) (c : LineCfg) (s : Machine.State), 1 ≤ n → lineCfg? s.cfg n = some c →
    (∀ m d, 1 ≤ m → m < n → lineCfg? s.cfg m = some d → d.role ≠ c.role) →
    s.level c.role = (s.lines.lineRec n).debounced)

/-- COUNT_PULSE: an edge to asserted counts, held at 4095 with the over-range mark; an edge to released
changes no count. PWM_PERIOD_START applies the requested duty, limited to 1000. A pin is undriven in
LOADING and CONFIG_FAULT; elsewhere a drive line follows its applied state, which is its owner's request
in LISTENING and RUNNING and released in DUPLICATE, and an OD_DRIVE line is never driven high; the PWM line
is asserted for the applied duty in each period, and released without on part at a duty of 0 and in
DUPLICATE. READY is high in LISTENING and RUNNING and low in LOADING, CONFIG_FAULT and DUPLICATE; a sensor
select is low while a transaction of its slot runs, CSEL while it is asserted, and LTX for a dominant bit
of the frame in transmission, recessive otherwise. SDO gives the bytes of the transaction under way, of the
sensor line or of the memory read, each most significant bit first; SCK runs for its bits at 8 MHz divided by
the configured divide, or at 1 MHz, and is idle otherwise. The level that COUNT_PULSE carries is the model's
operand (log 17); the bits of a frame and of a transaction are counted from its first (log 14), and that
SDO has no level where none is clocked out, and the memory's request its bit order, is log 34. -/
def Obligations.PulsesDutyAndPinsFollowTheLines : Prop :=
  (∀ (n : Nat) (high : Bool) (c : LineCfg) (s : Machine.State), s.active = true → 1 ≤ n → n ≤ 24 →
    lineCfg? s.cfg n = some c → c.mode = .count → (s.lines.lineRec n).pinHigh ≠ high →
    exec (.countPulse n high) s = .next { s with
      lines := s.lines.setRec n
        (if logical c.polarity high = true then
        (if (s.lines.lineRec n).count < 4095 then
          { s.lines.lineRec n with pinHigh := high, count := (s.lines.lineRec n).count + 1 }
        else { s.lines.lineRec n with pinHigh := high, overRange := true })
      else { s.lines.lineRec n with pinHigh := high }) }) ∧
  (∀ s : Machine.State, s.active = true →
    exec .pwmPeriodStart s = .next { s with lines := { s.lines with
      appliedDuty := min 1000 s.direction.duty } }) ∧
  (∀ (n : Nat) (s : Machine.State), s.startup.station = .loading ∨ s.startup.station = .configFault →
    pinDrive s n = .highZ) ∧
  (∀ (n : Nat) (c : LineCfg) (s : Machine.State), s.active = true ∨ s.startup.station = .duplicate →
    lineCfg? s.cfg n = some c → c.mode = .ppDrive →
    pinDrive s n =
      if logical c.polarity (s.active && requestOf s.lines.requests c.role) = true then .high
      else .low) ∧
  (∀ (n : Nat) (c : LineCfg) (s : Machine.State), s.active = true ∨ s.startup.station = .duplicate →
    lineCfg? s.cfg n = some c → c.mode = .odDrive →
    pinDrive s n =
      if logical c.polarity (s.active && requestOf s.lines.requests c.role) = true then .highZ
      else .low) ∧
  (∀ (n : Nat) (c : LineCfg) (s : Machine.State), s.active = true ∨ s.startup.station = .duplicate →
    lineCfg? s.cfg n = some c → c.mode = .sense ∨ c.mode = .count → pinDrive s n = .input) ∧
  (∀ (n : Nat) (c : LineCfg) (s : Machine.State), s.active = true → lineCfg? s.cfg n = some c →
    c.mode = .pwm → 0 < s.lines.appliedDuty →
    pinDrive s n =
      match c.polarity with
      | .activeHigh => .pulseHigh s.lines.appliedDuty
      | .activeLow => .pulseLow s.lines.appliedDuty) ∧
  (∀ (n : Nat) (c : LineCfg) (s : Machine.State),
    (s.active = true ∧ s.lines.appliedDuty = 0) ∨ s.startup.station = .duplicate →
    lineCfg? s.cfg n = some c → c.mode = .pwm →
    pinDrive s n =
      match c.polarity with
      | .activeHigh => .low
      | .activeLow => .high) ∧
  (∀ high : Bool, logical .activeHigh high = high ∧ logical .activeLow high = !high) ∧
  (∀ d : DriveReqs,
    requestOf d .whvCmd = d.whv ∧ requestOf d .injvCmd = d.injv ∧ requestOf d .wdvCmd = d.wdv ∧
    requestOf d .tripOut = d.tripOut ∧ requestOf d .u1RunCmd = d.u1Run ∧
    requestOf d .u2RunCmd = d.u2Run ∧ requestOf d .twrACmd = d.twrA ∧
    requestOf d .twrBCmd = d.twrB ∧ requestOf d .heaterCmd = d.heater ∧ requestOf d .spare = false) ∧
  (∀ s : Machine.State,
    (s.startup.station = .listening ∨ s.startup.station = .running → readyPin s = true) ∧
    (s.startup.station = .loading ∨ s.startup.station = .configFault ∨
      s.startup.station = .duplicate → readyPin s = false)) ∧
  (∀ (p : Pass) (x : Transaction) (s : Machine.State), s.scanner.pass = some p →
    p.phase = .starting x ∨ p.phase = .reading x →
    ∀ n : Nat, selectPin s n = false ↔ n = x.select) ∧
  (∀ s : Machine.State,
    s.scanner.pass = none ∨ (∃ p ms, s.scanner.pass = some p ∧ p.phase = .waiting ms) →
    ∀ n : Nat, selectPin s n = true) ∧
  (∀ s : Machine.State, cselPin s = !s.startup.csel) ∧
  (∀ (p : Pass) (x : Transaction) (s : Machine.State), s.active = true → s.scanner.pass = some p →
    p.phase = .starting x ∨ p.phase = .reading x →
    (∀ (j k : Nat) (b : Byte), x.bytesOut[j]? = some b → k < 8 →
      sdoPin s (8 * j + k) = some (b.getLsbD (7 - k)) ∧
      sckPeriod s (8 * j + k) = some s.cfg.clockDivide) ∧
    (∀ i : Nat, 8 * x.bytesOut.length ≤ i → sdoPin s i = none ∧ sckPeriod s i = none)) ∧
  (∀ s : Machine.State, s.active = true →
    s.scanner.pass = none ∨ (∃ p ms, s.scanner.pass = some p ∧ p.phase = .waiting ms) →
    ∀ i : Nat, sdoPin s i = none ∧ sckPeriod s i = none) ∧
  (∀ s : Machine.State, s.active = false → s.startup.csel = true →
    (∀ (j k : Nat) (b : Byte), s.startup.memoryOut[j]? = some b → k < 8 →
      sdoPin s (8 * j + k) = some (b.getLsbD (7 - k))) ∧
    (∀ i : Nat, 8 * s.startup.memoryOut.length ≤ i → sdoPin s i = none) ∧
    (s.startup.load = .header → ∀ i : Nat, sckPeriod s i = if i < 8 * 6 then some 8 else none) ∧
    (∀ b0 b1 b2, s.startup.load = .body b0 b1 b2 → ∀ i : Nat,
      sckPeriod s i = if i < 8 * (3 + (b0.toNat * 256 + b1.toNat)) then some 8 else none)) ∧
  (∀ s : Machine.State, s.active = false → s.startup.csel = false →
    ∀ i : Nat, sdoPin s i = none ∧ sckPeriod s i = none) ∧
  (∀ (bytes : List Byte) (s : Machine.State), s.link.sending = some bytes →
    ltxPin s 0 = false ∧
    (∀ (i : Nat) (recessive : Bool), (lineBits bytes)[i]? = some recessive → ltxPin s i = recessive) ∧
    (∀ i : Nat, (lineBits bytes).length ≤ i → ltxPin s i = true)) ∧
  (∀ (i : Nat) (s : Machine.State), s.link.sending = none → ltxPin s i = true) ∧
  (linkLevel false = false ∧ linkLevel true = true)

/-! ### Sensor scan -/

/-- SCAN_TIMER_EXPIRY: a pass starts with the lowest fitted slot; while one runs the expiry is skipped, and
the first skip since the pass started posts SCAN_OVERRUN with the slot in hand. START_TRANSACTION_END
starts the slot's conversion wait; CONVERSION_WAIT_EXPIRY starts its read transaction: the read request and
as many zero bytes as the reply length. -/
def Obligations.ScanPassGoesSlotBySlot : Prop :=
  (∀ s : Machine.State, s.active = true → s.scanner.timer ≠ .stopped → s.scanner.pass = none →
    s.cfg.slots.wellP.fitted = true →
    exec .scanTimerExpiry s = .next { s with scanner := { s.scanner with
      pass := some
        { slot := .wellP
          phase := .starting
            { select := s.cfg.slots.wellP.select
              bytesOut := s.cfg.slots.wellP.startRequest
              micros := (s.cfg.slots.wellP.startRequest.length + 1) * s.cfg.clockDivide }
          skipped := false } } }) ∧
  (∀ (p : Pass) (s : Machine.State), s.active = true → s.scanner.timer ≠ .stopped →
    s.scanner.pass = some p → p.skipped = false →
    exec .scanTimerExpiry s = .next (post .scanOverrun (qtyId p.slot)
      { s with scanner := { s.scanner with pass := some { p with skipped := true } } })) ∧
  (∀ (p : Pass) (s : Machine.State), s.active = true → s.scanner.pass = some p → p.skipped = true →
    exec .scanTimerExpiry s = .next s) ∧
  (∀ (p : Pass) (x : Transaction) (s : Machine.State), s.active = true → s.scanner.pass = some p →
    p.phase = .starting x →
    exec .startTransactionEnd s = .next { s with scanner := { s.scanner with
      pass := some { p with phase := .waiting (getQty s.cfg.slots p.slot).conversionWait } } }) ∧
  (∀ (p : Pass) (ms : Nat) (s : Machine.State), s.active = true → s.scanner.pass = some p →
    p.phase = .waiting ms →
    exec .conversionWaitExpiry s = .next { s with scanner := { s.scanner with
      pass := some { p with
        phase := .reading
          { select := (getQty s.cfg.slots p.slot).select
            bytesOut := (getQty s.cfg.slots p.slot).readRequest ++
            List.replicate (getQty s.cfg.slots p.slot).replyLength 0#8
            micros := ((getQty s.cfg.slots p.slot).readRequest.length +
              (getQty s.cfg.slots p.slot).replyLength + 1) * s.cfg.clockDivide } } } })

/-- A reply is judged by status check, floor scaling and range check. READ_TRANSACTION_END with the slot's
reply: the quantity record is updated at once by R17's table, its event is posted, an update of DEW_OUT is
delivered, and the next fitted slot begins or the pass ends. -/
def Obligations.ReadEndJudgesAndUpdatesTheQuantity : Prop :=
  (∀ (q : Qty) (c : SlotCfg) (b0 b1 b2 : Byte) (more : List Byte),
     judgeReply q c (b0 :: b1 :: b2 :: more) =
       if b0 &&& c.statusMask = c.statusMatch ∧
           (qtyRange q).1 ≤ ((b1 ++ b2).toInt * c.gain).fdiv 1024 + c.offset ∧
           ((b1 ++ b2).toInt * c.gain).fdiv 1024 + c.offset ≤ (qtyRange q).2 then
         some (((b1 ++ b2).toInt * c.gain).fdiv 1024 + c.offset)
       else none) ∧
  (∀ (p : Pass) (x : Transaction) (reply : List Byte) (s : Machine.State), s.active = true →
     s.scanner.pass = some p → p.phase = .reading x →
     reply.length = (getQty s.cfg.slots p.slot).replyLength →
     ∃ t, exec (.readTransactionEnd reply) s = .next t ∧
       (∀ v, judgeReply p.slot (getQty s.cfg.slots p.slot) reply = some v →
         t.qty p.slot = { value := v, state := .good, fails := 0, lastGood := some v } ∧
         t.events = (if (s.qty p.slot).state = .failed then
           post .quantityRestored (qtyId p.slot) s else s).events) ∧
       (judgeReply p.slot (getQty s.cfg.slots p.slot) reply = none →
         (t.qty p.slot).value = (s.qty p.slot).value ∧
         (t.qty p.slot).lastGood = (s.qty p.slot).lastGood ∧
         (t.qty p.slot).fails = min 3 ((s.qty p.slot).fails + 1) ∧
         ((s.qty p.slot).fails + 1 < 3 → (s.qty p.slot).state = .none → (t.qty p.slot).state = .none) ∧
         ((s.qty p.slot).fails + 1 < 3 → (s.qty p.slot).state = .good ∨ (s.qty p.slot).state = .held →
           (t.qty p.slot).state = .held) ∧
         (3 ≤ (s.qty p.slot).fails + 1 ∨ (s.qty p.slot).state = .failed →
           (t.qty p.slot).state = .failed) ∧
         t.events = (if 3 ≤ (s.qty p.slot).fails + 1 ∧ (s.qty p.slot).state ≠ .failed then
           post .quantityFailed (qtyId p.slot) s else s).events) ∧
       (∀ q, q ≠ p.slot → t.qty q = s.qty q) ∧
       t.scanner.timer = s.scanner.timer ∧
       (p.slot = .regenT → t.scanner.pass = none) ∧
       (∀ q, (p.slot, q) ∈ [(Qty.wellP, Qty.wellT), (Qty.wellT, Qty.lineP), (Qty.lineP, Qty.dewOut),
           (Qty.dewOut, Qty.regenT)] → (getQty s.cfg.slots q).fitted = true →
         t.scanner.pass = some
           { slot := q
             phase := .starting
               { select := (getQty s.cfg.slots q).select
                 bytesOut := (getQty s.cfg.slots q).startRequest
                 micros := ((getQty s.cfg.slots q).startRequest.length + 1) * s.cfg.clockDivide }
             skipped := p.skipped }) ∧
       (p.slot = .dewOut → s.cfg.slots.regenT.fitted = false → t.scanner.pass = none) ∧
       t.inbox = (if p.slot = .dewOut then { s.inbox with
         dewUpdates := s.inbox.dewUpdates ++ [((t.qty .dewOut).state, (t.qty .dewOut).value)] }
         else s.inbox) ∧
       KeepsAllBut [.scanner, .events, .inbox] s t)

/-! ### The pad link -/

/-- LINK_TX_START: the head frame starts when the line has been recessive for 11 bit times, or for 11 and
8 for each unit of the own address when its backoff mark is set; FRAME_SENT: the head leaves, and a held
STATUS is appended when the STATUS in transmission has left. The recessive run is the model's operand
(log 14). -/
def Obligations.HeadFrameStartsAndLeaves : Prop :=
  (∀ (recessive : Nat) (f : TxFrame) (rest : List TxFrame) (s : Machine.State), s.active = true →
    s.link.queue = f :: rest → s.link.sending = none → s.link.rx = .waiting →
    exec (.linkTxStart recessive) s = .next (
      if (if f.backoff = true then 11 + 8 * s.cfg.ownAddress else 11) ≤ recessive then
        { s with link := { s.link with
          queue := { f with backoff := false } :: rest
          sending := some (frameBytes (txKindCode f.kind) s.cfg.ownAddress f.payload) } }
      else s)) ∧
  (∀ (bytes : List Byte) (f : TxFrame) (rest : List TxFrame) (s : Machine.State), s.active = true →
    s.link.sending = some bytes → s.link.queue = f :: rest →
    (f.kind = .status → ∀ h, s.link.hold = some h →
      exec .frameSent s = .next { s with link := { s.link with
        sending := none, hold := none
        queue := rest ++ [{ kind := .status, payload := h, collisions := 0, backoff := false }] } }) ∧
    ((f.kind ≠ .status ∨ s.link.hold = none) →
      exec .frameSent s = .next { s with link := { s.link with sending := none, queue := rest } }))

/-- ARBITRATION_LOSS at a recessive kind or sender bit: the send stops, the frame stays at the head
uncounted, the winner's frame is received, and a held STATUS replaces the STATUS that lost. COLLISION:
below 16 the head's count rises and its backoff mark is set, and a held STATUS replaces it; at the 16th it
is discarded with LINK_TX_FAIL, and RX_OVERRUN that it carried is set again. The bit is the model's
operand (log 14), the receiver's place on the line its own (log 15). -/
def Obligations.LostSendsKeepOrDiscardTheHeadFrame : Prop :=
  (∀ (bit : Nat) (bytes : List Byte) (f : TxFrame) (rest : List TxFrame) (s : Machine.State),
     s.active = true → s.link.sending = some bytes → s.link.queue = f :: rest →
     (arbitrationBits bytes)[bit]? = some true →
     (∀ h, f.kind = .status → s.link.hold = some h →
       exec (.arbitrationLoss bit) s = .next { s with link := { s.link with
         sending := none, rx := .taking, hold := none
         queue := { f with
           payload := if statusOverrun f.payload = true then setStatusOverrun h else h
           collisions := 0 } :: rest } }) ∧
     (f.kind ≠ .status ∨ s.link.hold = none →
       exec (.arbitrationLoss bit) s = .next { s with link := { s.link with
         sending := none, rx := .taking } })) ∧
  (∀ (bytes : List Byte) (f : TxFrame) (rest : List TxFrame) (s : Machine.State), s.active = true →
     s.link.sending = some bytes → s.link.queue = f :: rest →
     (f.collisions + 1 < 16 → (f.kind ≠ .status ∨ s.link.hold = none) →
       exec .collision s = .next { s with link := { s.link with
         sending := none, rx := .taking
         queue := { f with collisions := f.collisions + 1, backoff := true } :: rest } }) ∧
     (∀ h, f.collisions + 1 < 16 → f.kind = .status → s.link.hold = some h →
       exec .collision s = .next { s with link := { s.link with
         sending := none, rx := .taking, hold := none
         queue := { f with
           payload := if statusOverrun f.payload = true then setStatusOverrun h else h
           collisions := 0, backoff := true } :: rest } }) ∧
     (16 ≤ f.collisions + 1 → f.kind ≠ .status →
       exec .collision s = .next (post .linkTxFail (txKindCode f.kind) { s with link := { s.link with
         sending := none, rx := .taking, queue := rest } })) ∧
     (16 ≤ f.collisions + 1 → f.kind = .status →
       exec .collision s = .next (post .linkTxFail 7 { s with link := { s.link with
         sending := none, rx := .taking, hold := none
         overrun := s.link.overrun || statusOverrun f.payload
         queue := rest ++ (match s.link.hold with
           | some h => [{ kind := .status, payload := h, collisions := 0, backoff := false }]
           | none => []) } })))

/-- The receiver: START_BIT_AFTER_IDLE begins a frame; FRAME_RECEIVE ends it, and an accepted frame takes
a free buffer or is lost with RX_OVERRUN, while a discarded one leaves no trace; FRAME_BROKEN_OFF and
HEADER_LENGTH_ABOVE_24 discard it silently. That a frame ends only after a start bit taken is the
model's (log 15). -/
def Obligations.ReceiverTakesPlacesAndDiscards : Prop :=
  (∀ s : Machine.State, s.active = true → s.link.rx = .waiting → s.link.sending = none →
    exec .startBitAfterIdle s = .next { s with link := { s.link with rx := .taking } }) ∧
  (∀ (bytes : List Byte) (s : Machine.State), s.active = true → s.link.rx = .taking →
    (acceptFrame s.cfg bytes = none →
      exec (.frameReceive bytes) s = .next { s with link := { s.link with rx := .waiting } }) ∧
    (∀ f, acceptFrame s.cfg bytes = some f → s.link.buffers.length < 2 →
      exec (.frameReceive bytes) s = .next { s with link := { s.link with
        rx := .waiting, buffers := s.link.buffers ++ [f] } }) ∧
    (∀ f, acceptFrame s.cfg bytes = some f → 2 ≤ s.link.buffers.length →
      exec (.frameReceive bytes) s = .next { s with link := { s.link with
        rx := .waiting, overrun := true } })) ∧
  (∀ (bytes : List Byte) (s : Machine.State), s.startup.station = .duplicate → s.link.rx = .taking →
    exec (.frameReceive bytes) s = .next { s with link := { s.link with rx := .waiting } }) ∧
  (∀ s : Machine.State, s.active = true → s.link.rx = .taking →
    exec .frameBrokenOff s = .next { s with link := { s.link with rx := .waiting } }) ∧
  (∀ (h0 h1 : Byte) (s : Machine.State), s.active = true → s.link.rx = .taking → 24 < h1.toNat % 64 →
    exec (.headerLengthAbove24 h0 h1) s = .next { s with link := { s.link with rx := .waiting } })

/-- A frame is accepted only when its CRC is right, its kind has a consumer, its length is its kind's and
its sender's class admits the kind. A frame with a right CRC from a listed terminal is accepted with the
fields of its kind's layout, whatever their bytes, but for the values that discard it: a NOMINATE rate of
−8,388,608, a SETUP right above 2,000,000, a CLEAR target outside 1 to 5, a QUERY selector outside 1 to 6,
an ENTRY role outside 1 to 3. -/
def Obligations.AcceptedFramesPassTheFrameChecks : Prop :=
  (∀ (img : Image) (bytes : List Byte) (f : RxFrame), acceptFrame img bytes = some f →
    ∃ h0 h1 payload,
      bytes = h0 :: h1 :: (payload ++ [crc8 (h0 :: h1 :: payload)]) ∧
      payload.length = h1.toNat % 64 ∧ payload.length ≤ 24 ∧
      f.sender = h0.toNat % 16 * 4 + h1.toNat / 64 ∧
      (h0.toNat / 16, payload.length) ∈ [(1, 4), (2, 7), (3, 8), (4, 8), (5, 2), (6, 1), (7, 21), (8, 4)] ∧
      (h0.toNat / 16 = 7 → 1 ≤ f.sender ∧ f.sender ≤ 32) ∧
      (h0.toNat / 16 ≠ 7 → f.sender ∈ img.terminals) ∧
      (f.dup = true ↔ h0.toNat / 16 = 7 ∧ f.sender = img.ownAddress)) ∧
  (∀ (img : Image) (sender : Nat) (b0 b1 b2 b3 b4 b5 b6 b7 : Byte), sender ∈ img.terminals → sender ≤ 63 →
    let takes := fun (kind : Nat) (payload : List Byte) (body : RxBody) =>
      acceptFrame img (frameBytes kind sender payload) =
        some { sender := sender, dup := false, body := body }
    let discards := fun (kind : Nat) (payload : List Byte) =>
      acceptFrame img (frameBytes kind sender payload) = none
    -- MARK
    takes 1 [b0, b1, b2, b3] (.mark (b0 ++ b1) (b2 ++ b3).toNat) ∧
    -- NOMINATE
    ((b4 ++ b5 ++ b6).toInt ≠ -8388608 → takes 2 [b0, b1, b2, b3, b4, b5, b6]
      (.nominate (b0 ++ b1) (b2 ++ b3).toNat (b4 ++ b5 ++ b6).toInt)) ∧
    ((b4 ++ b5 ++ b6).toInt = -8388608 → discards 2 [b0, b1, b2, b3, b4, b5, b6]) ∧
    -- SETUP
    ((b2 ++ b3 ++ b4).toNat ≤ 2000000 ∧ (b5 ++ b6 ++ b7).toNat ≤ 2000000 →
      takes 3 [b0, b1, b2, b3, b4, b5, b6, b7]
        (.setup (b0 ++ b1).toNat (b2 ++ b3 ++ b4).toNat (b5 ++ b6 ++ b7).toNat)) ∧
    (2000000 < (b2 ++ b3 ++ b4).toNat ∨ 2000000 < (b5 ++ b6 ++ b7).toNat →
      discards 3 [b0, b1, b2, b3, b4, b5, b6, b7]) ∧
    -- BALANCE
    takes 4 [b0, b1, b2, b3, b4, b5, b6, b7]
      (.balance (b0 ++ b1).toNat (b2 ++ b3 ++ b4 ++ b5 ++ b6 ++ b7).toInt) ∧
    -- RETIRE
    takes 5 [b0, b1] (.retire (b0 ++ b1).toNat) ∧
    -- CLEAR
    takes 6 [1#8] (.clear .trip) ∧ takes 6 [2#8] (.clear (.unit .one)) ∧
    takes 6 [3#8] (.clear (.unit .two)) ∧ takes 6 [4#8] (.clear (.tower .a)) ∧
    takes 6 [5#8] (.clear (.tower .b)) ∧
    (b0 = 0#8 ∨ 5 < b0.toNat → discards 6 [b0]) ∧
    -- QUERY
    takes 8 [1#8, b1, b2, b3] (.query (.account (b1 ++ b2).toNat)) ∧
    takes 8 [2#8, 1#8, b2, b3] (.query (.entry .openRole (b2 ++ b3).toNat)) ∧
    takes 8 [2#8, 2#8, b2, b3] (.query (.entry .pendingRole (b2 ++ b3).toNat)) ∧
    takes 8 [2#8, 3#8, b2, b3] (.query (.entry .closedRole (b2 ++ b3).toNat)) ∧
    (b1 = 0#8 ∨ 3 < b1.toNat → discards 8 [2#8, b1, b2, b3]) ∧
    takes 8 [3#8, b1, b2, b3] (.query (.peer b1.toNat)) ∧
    takes 8 [4#8, b1, b2, b3] (.query (.quantity b1.toNat)) ∧
    takes 8 [5#8, b1, b2, b3] (.query .lines) ∧
    takes 8 [6#8, b1, b2, b3] (.query .station) ∧
    (b0 = 0#8 ∨ 6 < b0.toNat → discards 8 [b0, b1, b2, b3]))

/-- A STATUS that a station sends is accepted by another with every field as sent, for every value its
field holds; one that carries the receiver's own address has the duplicate mark. -/
def Obligations.StatusSentIsTheStatusReceived : Prop :=
  ∀ (img : Image) (sender : Nat) (f : StatusFields), 1 ≤ sender → sender ≤ 32 →
    f.aInj < 2 ^ 24 → f.aWd < 2 ^ 24 → f.p < 2 ^ 24 → -(2 ^ 23) ≤ f.flow → f.flow < 2 ^ 23 →
    acceptFrame img (frameBytes 7 sender (statusPayload f)) = some
      { sender := sender, dup := decide (sender = img.ownAddress), body := .status f }

/-- An offered STATUS is always taken: held while one is in transmission, in place of the queued one, or at
the tail. EVENT_ADMISSION and CLOSING_REPORT_ADMISSION: the feeder's frame enters the queue of 6 frames or
fewer when the other does not wait or the admission mark does not name this feeder; the mark then names
it. The layouts of the EVENT and of the closing REPORT, and the entries that qualify for one. -/
def Obligations.OfferedFramesEnterTheQueue : Prop :=
  (∀ e : EventRec, eventPayload e = putU 1 (eventCode e.kind) ++ putU 2 e.detail ++ putU 4 e.seconds) ∧
  ([EventKind.linkTxFail, .dupAddress, .peerNew, .peerStale, .peerReturn, .peerLost,
     .configMismatch, .periodDisagree, .quantityFailed, .quantityRestored, .scanOverrun,
     .meterOverrange, .meterUnexpected, .pressureRate, .unitStartFail, .unitTrip, .unitLockout,
     .towerSwitch, .towerFault, .offSpecOn, .offSpecOff, .lineupFail, .directionChange, .trip,
     .tripCleared, .clearRefused, .nomRefused, .nomCurtailed, .acctFull, .balanceRefused,
     .retireRefused, .periodRotate, .periodOwnClock, .periodSkip, .closeLost, .queryDropped].map
      eventCode = (List.range 36).map (fun i => i + 1)) ∧
  (∀ (seq : Word16) (code : Nat) (e : Entry), closingPayload seq code e =
    [7#8, BitVec.ofNat 8 (3 + (if e.nomination.isSome then 4 else 0) + (if e.curtailed then 8 else 0))] ++
      putU 2 seq.toNat ++ putU 2 code ++ putS 3 (e.nomination.getD 0) ++ putU 4 e.injected ++
      putU 4 e.withdrawn ++ putU 3 e.fuel ++ putU 4 e.offSpec) ∧
  (∀ (table : List Entry) (i : Nat), qualifies table i = true ↔
    (let e := table.getD i Entry.blank
     i = 0 ∨ e.nomination ≠ none ∨ e.injected ≠ 0 ∨ e.withdrawn ≠ 0 ∨ e.fuel ≠ 0 ∨ e.offSpec ≠ 0)) ∧
  (∀ (p : List Byte) (l : Link) (f : TxFrame) (rest : List TxFrame), l.queue = f :: rest →
    f.kind = .status → l.sending ≠ none →
    offerStatus p l = { l with
      overrun := false
      hold := some (match l.hold with
        | some h => if statusOverrun h = true then setStatusOverrun p else p
        | none => p) }) ∧
  (∀ (p : List Byte) (l : Link) (before after : List TxFrame) (f : TxFrame),
    l.queue = before ++ f :: after → (∀ g ∈ before, g.kind ≠ .status) → f.kind = .status →
    (l.sending = none ∨ before ≠ []) →
    offerStatus p l = { l with
      overrun := false
      queue := before ++ { f with
        payload := if statusOverrun f.payload = true then setStatusOverrun p else p
        collisions := 0 } :: after }) ∧
  (∀ (p : List Byte) (l : Link), (∀ g ∈ l.queue, g.kind ≠ .status) →
    offerStatus p l = { l with
      overrun := false
      queue := l.queue ++ [{ kind := .status, payload := p, collisions := 0, backoff := false }] }) ∧
  (∀ (e : EventRec) (rest : List EventRec) (s : Machine.State), s.active = true →
    s.events.queue = e :: rest →
    (s.link.queue.length ≤ 6 → (s.accounts.cursor = none ∨ s.link.mark = .cursor) →
      exec .eventAdmission s = .next { s with
        link := { s.link with
          mark := .eventQueue
          queue := s.link.queue ++
            [{ kind := .event, payload := eventPayload e, collisions := 0, backoff := false }] }
        events := { s.events with queue := rest, lost := s.events.lost && decide (rest ≠ []) } }) ∧
    ((6 < s.link.queue.length ∨ (s.accounts.cursor ≠ none ∧ s.link.mark = .eventQueue)) →
      exec .eventAdmission s = .next s)) ∧
  (∀ (i : Nat) (s : Machine.State), s.active = true → s.accounts.cursor = some i →
    (s.link.queue.length ≤ 6 → (s.events.queue = [] ∨ s.link.mark = .eventQueue) →
      ∃ t, exec .closingReportAdmission s = .next t ∧
        t.link = { s.link with
          mark := .cursor
          queue := s.link.queue ++
            [{ kind := .report
               payload := closingPayload s.accounts.closedSeq (s.accounts.acc i).code
                 (s.accounts.entry s.accounts.closedT i)
               collisions := 0, backoff := false }] } ∧
        (∀ j, i < j → j ≤ 48 → qualifies (s.accounts.table s.accounts.closedT) j = true →
          (∀ k, i < k → k < j → qualifies (s.accounts.table s.accounts.closedT) k = false) →
          t.accounts = { s.accounts with cursor := some j }) ∧
        ((∀ j, i < j → j ≤ 48 → qualifies (s.accounts.table s.accounts.closedT) j = false) →
          t.accounts = { s.accounts.setTable s.accounts.closedT (List.replicate 49 Entry.blank) with
            cursor := none, reporting := false }) ∧
        KeepsAllBut [.link, .accounts] s t) ∧
    ((6 < s.link.queue.length ∨ (s.events.queue ≠ [] ∧ s.link.mark = .cursor)) →
      exec .closingReportAdmission s = .next s))

/-! ### Events -/

/-- An event posted while the station works is appended with the clock as it stands where fewer than 10
wait, and is otherwise dropped with EVENTS_LOST set; several are judged one after the other; elsewhere
none is posted. -/
def Obligations.PostAppendsOrDropsWithEventsLost : Prop :=
  (∀ (k : EventKind) (d : Nat) (s : Machine.State), s.active = true → s.events.queue.length < 10 →
    post k d s = { s with events := { s.events with queue := s.events.queue ++
      [{ kind := k, detail := d, seconds := s.events.clock }] } }) ∧
  (∀ (k : EventKind) (d : Nat) (s : Machine.State), s.active = true → 10 ≤ s.events.queue.length →
    post k d s = { s with events := { s.events with lost := true } }) ∧
  (∀ (k : EventKind) (d : Nat) (s : Machine.State), s.active = false → post k d s = s) ∧
  (∀ (k : EventKind) (d : Nat) (more : List (EventKind × Nat)) (s : Machine.State),
    postAll ((k, d) :: more) s = postAll more (post k d s)) ∧
  (∀ s : Machine.State, postAll [] s = s)

/-! ### Peers -/

/-- STATUS_TAKE of another station's STATUS: it is filed FRESH with its silence timer at 3 × C, the
arrival's events are posted by the state before it, and a disagreement of OPEN sequence is posted once in a
stay. SILENCE_TIMER_EXPIRY: FRESH goes STALE with its timer at 5 × C, STALE goes ABSENT with every field
cleared, each with its event. -/
def Obligations.PeersAreFiledJudgedAndAged : Prop :=
  (∀ (f : RxFrame) (fields : StatusFields) (rest : List RxFrame) (s : Machine.State), s.active = true →
     takeFrame .peerRoster s.link.buffers = some (f, rest) → f.body = .status fields → f.dup = false →
     let old := peerRec s.roster f.sender
     let mark := decide (old.state = .fresh) && old.disagree
     let clash := decide (s.accounts.sync ≠ .unsynced) && !fields.flags.getLsbD 9 && !mark &&
       decide (fields.openSeq ≠ s.accounts.openSeq)
     exec .statusTake s = .next (postAll
       ((match old.state with
         | .fresh => []
         | .stale => [(.peerReturn, f.sender)]
         | .absent => (.peerNew, f.sender) ::
           (if fields.signature = s.startup.signature then [] else [(.configMismatch, f.sender)])) ++
         (if clash = true then [(.periodDisagree, f.sender)] else []))
       { s with
         link := { s.link with buffers := rest }
         roster := s.roster.set (f.sender - 1)
           { state := .fresh, last := fields
             silence := .running (3 * (s.cfg.station.shareCycle * 1000))
             disagree := mark || clash } })) ∧
  (∀ (n : Nat) (s : Machine.State), s.active = true → 1 ≤ n → n ≤ 32 →
     (peerRec s.roster n).silence ≠ .stopped →
     ((peerRec s.roster n).state = .fresh →
       exec (.silenceTimerExpiry n) s = .next (post .peerStale n { s with
         roster := s.roster.set (n - 1) { peerRec s.roster n with
           state := .stale, silence := .running (5 * (s.cfg.station.shareCycle * 1000)) } })) ∧
     ((peerRec s.roster n).state = .stale →
       exec (.silenceTimerExpiry n) s = .next (post .peerLost n { s with
         roster := s.roster.set (n - 1)
           { state := .absent, last := StatusFields.zero, silence := .stopped, disagree := false } })))

/-! ### Metering -/

/-- METER_INTERVAL: both COUNT lines are collected, the increment V and the residue are formed from the
count, WELL_P, WELL_T and the ZC curve, V is signed by the direction state and offered to its takers, and
the fuel increment is formed. An entry into IDLE or TRIPPED that waits has come first: it is taken before
the expiry, which finds the unexpected mark clear. An increment that waits is taken within the interval that
ends, so that each increment list then holds at most one. That the expiry itself makes these takes is the
model's (log 33, log 25). Sums outside 64 bits are the free value of log 11; the order of the events is
log 18. -/
def Obligations.MeterIntervalFormsTheIncrements : Prop :=
  (∀ (lineM lineF : Nat) (s : Machine.State), s.active = true → s.meter.interval ≠ .stopped →
    s.inbox.meterEntries = [] → s.accounts.metered = [] → s.accounts.fuel = [] →
    lineOf? s.cfg .meterPulse = some lineM → lineOf? s.cfg .fuelPulse = some lineF → lineM ≠ lineF →
    1 ≤ lineM → 1 ≤ lineF →
    let rm := s.lines.lineRec lineM
    let rf := s.lines.lineRec lineF
    let p := (s.qty .wellP).value.toNat
    let t := (s.qty .wellT).value.toNat
    let zc := curveAt s.cfg.curves.zc (s.qty .wellP).value
    let qm := rm.count * s.cfg.station.lpp * p * 18200 * 1024 / (t * zc) + s.meter.residue
    let toward : Option Machine.Flow :=
      match s.direction.state with
      | .lineupInj => some .inj
      | .inject => some .inj
      | .lineupWd => some .wd
      | .withdraw => some .wd
      | .rundown => some s.direction.remembered
      | .idle => none
      | .tripped => none
    let sign := toward.getD s.meter.lastSign
    let v : Int := if sign = .inj then (qm / 1024 : Nat) else -(qm / 1024 : Nat)
    let fuel := rf.count * s.cfg.station.fuelPerPulse
    let surprise := decide (toward = none ∧ 0 < rm.count)
    exec .meterInterval s = .next (postAll
      ((if surprise = true ∧ s.meter.unexpected = false then [(.meterUnexpected, rm.count)] else []) ++
        (if rm.overRange = true then [(.meterOverrange, 1)] else []) ++
        (if rf.overRange = true then [(.meterOverrange, 2)] else []))
      { s with
        lines := (s.lines.setRec lineM { rm with count := 0, overRange := false }).setRec lineF
          { rf with count := 0, overRange := false }
        meter := { s.meter with
          residue := qm % 1024
          net := acc64 (s.meter.net + v)
          flow := (v * 36).tdiv 10
          lastSign := sign
          unexpected := s.meter.unexpected || surprise
          fuelTotal := acc64 (s.meter.fuelTotal + fuel) }
        accounts := { s.accounts with
          metered := if v = 0 then [] else [v]
          fuel := if fuel = 0 then [] else [fuel] }
        inbox := if v < 0 then
          { s.inbox with dryerIncrements := s.inbox.dryerIncrements ++ [v] } else s.inbox })) ∧
  (∀ s : Machine.State, s.active = true → s.meter.interval ≠ .stopped → s.inbox.meterEntries ≠ [] →
    exec .meterInterval s = exec .meterInterval { s with
      inbox := { s.inbox with meterEntries := [] }
      meter := { s.meter with unexpected := false } }) ∧
  (∀ s t : Machine.State, s.active = true → s.meter.interval ≠ .stopped →
    exec .accountIncrementTake s = .next t → exec .meterInterval s = exec .meterInterval t) ∧
  (∀ s t : Machine.State, s.active = true → s.meter.interval ≠ .stopped → s.accounts.metered = [] →
    exec .fuelIncrementTake s = .next t → exec .meterInterval s = exec .meterInterval t) ∧
  (∀ s : Machine.State, s.active = true → s.meter.interval ≠ .stopped →
    ∃ t, exec .meterInterval s = .next t ∧ t.inbox.meterEntries = [] ∧
      t.accounts.metered.length ≤ 1 ∧ t.accounts.fuel.length ≤ 1)

/-- HISTORY_TIMER_EXPIRY appends a usable WELL_P to the ring and, with the ring at 16, sets both caps
anew; with WELL_P unusable nothing changes. UNEXPECTED_MARK_CLEAR takes an
entry that waits and clears the mark. -/
def Obligations.HistoryJudgesBothCaps : Prop :=
  (∀ s : Machine.State, s.active = true → s.meter.history ≠ .stopped → s.usable .wellP = none →
    exec .historyTimerExpiry s = .next s) ∧
  (∀ (v : Int) (s : Machine.State), s.active = true → s.meter.history ≠ .stopped →
    s.usable .wellP = some v → s.meter.ring.length < 15 →
    exec .historyTimerExpiry s = .next { s with meter := { s.meter with ring := s.meter.ring ++ [v] } }) ∧
  (∀ (v oldest : Int) (kept : List Int) (s : Machine.State), s.active = true →
    s.meter.history ≠ .stopped → s.usable .wellP = some v → kept.length = 14 →
    ((∃ gone, s.meter.ring = gone :: oldest :: kept) ∨ s.meter.ring = oldest :: kept) →
    let inj := decide ((s.cfg.station.riseLimit : Int) < v - oldest)
    let wd := decide ((s.cfg.station.fallLimit : Int) < oldest - v)
    exec .historyTimerExpiry s = .next (postAll
      ((if inj = true ∧ s.meter.injCap = false then [(.pressureRate, 1)] else []) ++
        (if wd = true ∧ s.meter.wdCap = false then [(.pressureRate, 2)] else []))
      { s with meter := { s.meter with
          ring := oldest :: (kept ++ [v]), injCap := inj, wdCap := wd } })) ∧
  (∀ (st : DirState) (rest : List DirState) (s : Machine.State), s.active = true →
    s.inbox.meterEntries = st :: rest →
    exec .unexpectedMarkClear s = .next { s with
      inbox := { s.inbox with meterEntries := rest }
      meter := { s.meter with unexpected := false } })

/-- A curve at an input: held at both ends, truncated toward zero between two neighbouring points. The unit
capacity, 0 with WELL_P or LINE_P unusable; C_avail and C_run, its multiples. The two cavern limits: 0 with
WELL_P unusable or past its cut-off, else the curve bounded by the
configured maximum and, under a rate cap, by Fmin. D_avail: Dmax; the taper of a loaded ON_LINE tower with
no STANDBY tower behind it; the off-spec halving. -/
def Obligations.AvailabilitiesFollowCurvesCapsAndTaper : Prop :=
  (∀ (c : Curve) (x0 y0 : Nat) (rest : List (Nat × Nat)) (x : Int),
    c.points = (x0, y0) :: rest → x ≤ (x0 : Int) → curveAt c x = y0) ∧
  (∀ (c : Curve) (before : List (Nat × Nat)) (xm ym : Nat) (x : Int),
    c.points = before ++ [(xm, ym)] → c.points.Pairwise (fun a b => a.1 < b.1) → (xm : Int) ≤ x →
    curveAt c x = ym) ∧
  (∀ (c : Curve) (before after : List (Nat × Nat)) (x0 y0 x1 y1 : Nat) (x : Int),
    c.points = before ++ (x0, y0) :: (x1, y1) :: after →
    c.points.Pairwise (fun a b => a.1 < b.1) → (x0 : Int) ≤ x → x < (x1 : Int) →
    (curveAt c x : Int) =
      (y0 : Int) + (((y1 : Int) - y0) * (x - x0)).tdiv ((x1 : Int) - x0)) ∧
  (∀ s : Machine.State,
    ((s.qty .wellP).state = .none ∨ (s.qty .wellP).state = .failed ∨
      (s.qty .lineP).state = .none ∨ (s.qty .lineP).state = .failed → unitCapacity s = 0) ∧
    ((s.qty .wellP).state = .good ∨ (s.qty .wellP).state = .held →
      (s.qty .lineP).state = .good ∨ (s.qty .lineP).state = .held →
      unitCapacity s =
        curveAt s.cfg.curves.unit (((s.qty .wellP).value * 64).fdiv (s.qty .lineP).value)) ∧
    cAvail s = unitCapacity s * ((if s.compressor.u1.state = .lockout then 0 else 1) +
      (if s.compressor.u2.state = .lockout then 0 else 1)) ∧
    cRun s = unitCapacity s * ((if s.compressor.u1.state = .running then 1 else 0) +
      (if s.compressor.u2.state = .running then 1 else 0))) ∧
  (∀ s : Machine.State, (s.qty .wellP).state = .none ∨ (s.qty .wellP).state = .failed →
    cavernInj s = 0 ∧ cavernWd s = 0) ∧
  (∀ s : Machine.State, (s.qty .wellP).state = .good ∨ (s.qty .wellP).state = .held →
    cavernInj s =
      (if (s.cfg.station.pmax : Int) ≤ (s.qty .wellP).value then 0
      else min (min s.cfg.station.winj (curveAt s.cfg.curves.inj (s.qty .wellP).value))
        (if s.meter.injCap = true then s.cfg.station.fmin else s.cfg.station.winj)) ∧
    cavernWd s =
      (if (s.qty .wellP).value ≤ (s.cfg.station.pmin : Int) then 0
      else min (min s.cfg.station.wwd (curveAt s.cfg.curves.wd (s.qty .wellP).value))
        (if s.meter.wdCap = true then s.cfg.station.fmin else s.cfg.station.wwd))) ∧
  (∀ (x : Tower) (c : DryerCfg) (d : Dryer), (d.tower x).state = .onLine →
     (d.tower (otherTower x)).state ≠ .onLine →
     let load := (d.tower x).load
     let taper := decide ((d.tower (otherTower x)).state ≠ .standby ∧
       (3 * c.lmax * 1000 : Nat) ≤ 4 * load)
     taperApplies c d = taper ∧
     dAvail c d =
       (let x := if taper = true then
           (max 0 (((c.dmax : Int) * ((c.lmax * 1000 : Nat) - load)).tdiv (c.lmax * 250 : Nat))).toNat
         else c.dmax
       if d.offSpec = true then min x (c.dmax / 2) else x))

/-! ### Compressor duty -/

/-- The unit timers: the run clock adds a second; the minimum run and minimum stop marks are set; a cooldown
ends in OFF; the dwell marks are set; each followed by the train judgement the rules name for it
(how often one judgement repeats is the model's, log 20). START_TIMEOUT_EXPIRY of a STARTING unit, and
CLEAR_UNIT by the unit's state and fault input. -/
def Obligations.UnitTimersTimeoutAndClear : Prop :=
  (∀ (u : UnitId) (s : Machine.State), s.active = true →
     let r := s.compressor.unit u
     (r.runClock ≠ .stopped → exec (.runClockExpiry u) s = .next { s with
       compressor := s.compressor.setUnit u { r with runSeconds := r.runSeconds + 1 } }) ∧
     (r.minRun ≠ .stopped → exec (.minimumRunExpiry u) s = .next (judgeDuty { s with
       compressor := s.compressor.setUnit u { r with minRun := .stopped, minRunMark := true } })) ∧
     (r.minStop ≠ .stopped →
       let s1 := { s with
         compressor := s.compressor.setUnit u { r with minStop := .stopped, minStopMark := true } }
       exec (.minimumStopExpiry u) s = .next
         (if r.state = .off ∧ s.level (faultRole u) = false then judgeTrain s1 else s1)) ∧
     (r.state = .cooldown → r.stateTimer ≠ .stopped →
       exec (.cooldownExpiry u) s = .next (judgeTrain { s with
         compressor := s.compressor.setUnit u { r with state := .off, stateTimer := .stopped } })) ∧
     (s.compressor.startDwell ≠ .stopped → exec .startDwellExpiry s = .next (judgeDuty { s with
       compressor := { s.compressor with startDwell := .stopped, startMark := true } })) ∧
     (s.compressor.stopDwell ≠ .stopped → exec .stopDwellExpiry s = .next (judgeDuty { s with
       compressor := { s.compressor with stopDwell := .stopped, stopMark := true } }))) ∧
  (∀ (u : UnitId) (s : Machine.State), s.active = true → (s.compressor.unit u).state = .starting →
    (s.compressor.unit u).stateTimer ≠ .stopped →
    let r := s.compressor.unit u
    let p := post .unitStartFail (unitNumber u)
      { s with compressor := s.compressor.setUnit u { r with fails := r.fails + 1 } }
    exec (.startTimeoutExpiry u) s = .next
      (if r.fails + 1 < 2 then judgeTrain (leaveTo u .off p)
      else judgeTrain (post .unitLockout (unitNumber u + 256) (leaveTo u .lockout p)))) ∧
  (∀ (u : UnitId) (f : RxFrame) (rest : List RxFrame) (s : Machine.State), s.active = true →
    takeFrame .compressorDuty s.link.buffers = some (f, rest) → f.body = .clear (.unit u) →
    let r := s.compressor.unit u
    let taken := { s with link := { s.link with buffers := rest } }
    exec .clearUnit s = .next
      (if r.state = .lockout then
        (if s.level (faultRole u) = true then post .clearRefused (unitNumber u + 1 + 512) taken
        else judgeTrain { taken with
          compressor := s.compressor.setUnit u { r with state := .off, fails := 0 } })
      else post .clearRefused (unitNumber u + 1 + 256) taken))

/-- A unit enters RUNNING, and a unit leaves STARTING or RUNNING: what each changes of the units, the run
command request and the notices. Which unit is eligible; what a start request does, where the run feedback
is already asserted too, and a stop request; which unit lead choice starts; and what the train's
judgement can change at all. -/
def Obligations.UnitChangesAndTrainRequests : Prop :=
  (∀ (u : UnitId) (s : Machine.State),
    let r := s.compressor.unit u
    let c := s.compressor.setUnit u { r with
      state := .running, fails := 0, stateTimer := .stopped, runClock := .running 1000
      minRun := if s.cfg.compressor.minRun = 0 then .stopped
        else .running (s.cfg.compressor.minRun * 1000)
      minRunMark := decide (s.cfg.compressor.minRun = 0)
      lag := decide ((s.compressor.unit (otherUnit u)).state = .running) }
    enterRunning u s = { s with
      compressor := c
      inbox := { s.inbox with notices := s.inbox.notices ++
        [{ entered := true, cRun := cRun { s with compressor := c } }] } }) ∧
  (∀ (u : UnitId) (dest : UnitState) (s : Machine.State),
    let t := leaveTo u dest s
    let r := s.compressor.unit u
    let o := s.compressor.unit (otherUnit u)
    t.compressor.unit u = { r with
      state := dest
      stateTimer := if dest = .cooldown then .running (s.cfg.compressor.cooldown * 1000) else .stopped
      runClock := .stopped, minRun := .stopped
      minStop := if s.cfg.compressor.minStop = 0 then .stopped
        else .running (s.cfg.compressor.minStop * 1000)
      minStopMark := decide (s.cfg.compressor.minStop = 0)
      lag := false, passedOver := r.passedOver || s.compressor.lineup } ∧
    t.compressor.unit (otherUnit u) = (if r.state = .running then { o with lag := false } else o) ∧
    t.compressor = (s.compressor.setUnit u (t.compressor.unit u)).setUnit (otherUnit u)
      (t.compressor.unit (otherUnit u)) ∧
    t.lines = { s.lines with requests :=
      (match u with
      | .one => { s.lines.requests with u1Run := false }
      | .two => { s.lines.requests with u2Run := false }) } ∧
    t.inbox = (if r.state = .running then { s.inbox with notices := s.inbox.notices ++
      [{ entered := false, cRun := cRun { s with compressor := t.compressor } }] } else s.inbox) ∧
    KeepsAllBut [.compressor, .lines, .inbox] s t) ∧
  (∀ (u : UnitId) (s : Machine.State), eligible s u = true ↔
    (s.compressor.unit u).state = .off ∧ (s.compressor.unit u).minStopMark = true ∧
    s.level (match u with
      | .one => .u1FaultIn
      | .two => .u2FaultIn) = false) ∧
  (∀ (u : UnitId) (s : Machine.State),
    let asked := { s with
      compressor := s.compressor.setUnit u { s.compressor.unit u with
        state := .starting, stateTimer := .running (s.cfg.compressor.startTimeout * 1000) }
      lines := { s.lines with requests :=
        (match u with
        | .one => { s.lines.requests with u1Run := true }
        | .two => { s.lines.requests with u2Run := true }) } }
    let feedback := s.level (match u with
      | .one => .u1RunFb
      | .two => .u2RunFb)
    (feedback = false → startRequest u s = asked) ∧
    (feedback = true → startRequest u s = enterRunning u asked)) ∧
  (∀ (u : UnitId) (s : Machine.State),
    stopRequest u s =
      if (s.compressor.unit u).state = .starting then leaveTo u .off s
      else if (s.compressor.unit u).state = .running then leaveTo u .cooldown s
      else s) ∧
  (∀ s : Machine.State, s.compressor.lineup = true →
    onDuty s.compressor.u1.state = false → onDuty s.compressor.u2.state = false →
    let ready := fun u => eligible s u = true ∧ (s.compressor.unit u).passedOver = false
    (¬ready .one → ¬ready .two → leadChoice s = s) ∧
    (ready .one → ¬ready .two → leadChoice s = startRequest .one s) ∧
    (ready .two → ¬ready .one → leadChoice s = startRequest .two s) ∧
    (ready .one → ready .two →
      leadChoice s = if s.compressor.u2.runSeconds < s.compressor.u1.runSeconds
        then startRequest .two s else startRequest .one s)) ∧
  (∀ s : Machine.State, s.compressor.lineup = false ∨ onDuty s.compressor.u1.state = true ∨
    onDuty s.compressor.u2.state = true → leadChoice s = s) ∧
  (∀ s : Machine.State, s.compressor.trainDir ≠ .inject → judgeDuty s = s) ∧
  (∀ s : Machine.State, judgeTrain s = judgeDuty (leadChoice s)) ∧
  (∀ s : Machine.State, KeepsAllBut [.compressor, .lines, .inbox] s (judgeTrain s) ∧
    KeepsAllBut [.compressor, .lines, .inbox] s (judgeDuty s))

/-- RUN_FEEDBACK_ASSERTION and RELEASE, FAULT_INPUT_ASSERTION and RELEASE, in each state of the unit. That a
fault input's change is a judgement point exactly where the unit is OFF with its minimum stop mark set is
DEDUCED (log 30), as is how often one judgement of the train repeats (log 20). -/
def Obligations.FeedbacksAndFaultsActByUnitState : Prop :=
  ∀ (u : UnitId) (rest : List (Role × Bool)) (s : Machine.State), s.active = true →
    let st := (s.compressor.unit u).state
    let taken := { s with inbox := { s.inbox with lineChanges := rest } }
    let rested := (s.compressor.unit u).minStopMark
    let tripped := fun (cause : Nat) =>
      let p := post .unitTrip (unitNumber u + 256 * cause) taken
      if s.cfg.compressor.faultMode = .latched then
        judgeTrain (post .unitLockout (unitNumber u + 512) (leaveTo u .lockout p))
      else judgeTrain (leaveTo u .off p)
    (takeChange (runFbRole u) s.inbox.lineChanges = some (true, rest) →
      exec (.runFeedbackAssertion u) s = .next
        (if st = .starting then judgeTrain (enterRunning u taken) else taken)) ∧
    (takeChange (runFbRole u) s.inbox.lineChanges = some (false, rest) →
      exec (.runFeedbackRelease u) s = .next (if st = .running then tripped 1 else taken)) ∧
    (takeChange (faultRole u) s.inbox.lineChanges = some (true, rest) →
      exec (.faultInputAssertion u) s = .next
        (if st = .starting ∨ st = .running then tripped 2
        else if st = .off ∧ rested = true then judgeTrain taken else taken)) ∧
    (takeChange (faultRole u) s.inbox.lineChanges = some (false, rest) →
      exec (.faultInputRelease u) s = .next
        (if st = .off ∧ rested = true then judgeTrain taken else taken))

/-- TRAIN_DIRECTION_CHANGE: the lineup request, the passed-over marks, the dwells, and which units get a
stop request, by the state delivered; a lineup to injection runs lead choice and INJECT the dwell
judgements. -/
def Obligations.TrainFollowsTheDirectionState : Prop :=
  ∀ (st : DirState) (f : Machine.Flow) (rest : List (DirState × Machine.Flow)) (s : Machine.State),
    s.active = true → s.inbox.dirChanges = (st, f) :: rest →
    let c0 := { s.compressor with
      trainDir := st, lineup := false
      u1 := { s.compressor.u1 with passedOver := false }
      u2 := { s.compressor.u2 with passedOver := false } }
    let ended := { s with inbox := { s.inbox with dirChanges := rest }, compressor := c0 }
    let taken := { s with
      inbox := { s.inbox with dirChanges := rest }
      compressor := { s.compressor with trainDir := st } }
    (st = .lineupInj → exec .trainDirectionChange s = .next
      (leadChoice { ended with compressor := { c0 with lineup := true } })) ∧
    (st = .inject → exec .trainDirectionChange s = .next (judgeDuty ended)) ∧
    (st = .idle ∨ st = .tripped → exec .trainDirectionChange s = .next
      (stopDwells (stopRequest .two (stopRequest .one ended)))) ∧
    (st = .rundown ∨ st = .lineupWd ∨ st = .withdraw → s.compressor.lineup = false →
      exec .trainDirectionChange s = .next (stopDwells taken)) ∧
    (st = .rundown ∨ st = .lineupWd ∨ st = .withdraw → s.compressor.lineup = true →
      exec .trainDirectionChange s = .next
        (stopDwells (stopIfStarting .two (stopIfStarting .one ended))))

/-- One judgement of the second-unit start and the lag stop: the two dwells and their marks by the start and
the stop condition; a mark that is set with its condition holding stays set while no start, or no lag stop,
can be made; a start goes to the eligible unit, of two the one with fewer run seconds and unit 1 on a
tie; a lag stop to the lag unit with its minimum run mark set; each clears its mark. In INJECT the train
judges so, and once more where a judgement has changed a unit's state (DEDUCED, log 20). -/
def Obligations.DwellsFollowTheStartAndStopConditions : Prop :=
  (∀ s : Machine.State,
    let c := s.compressor
    let cs := decide (cRun s * s.cfg.compressor.startThreshold / 64 < s.share.lastP)
    let ct := decide (c.u1.state = .running ∧ c.u2.state = .running ∧
      s.share.lastP < unitCapacity s * s.cfg.compressor.stopThreshold / 64)
    let startDwell := if cs = true then
      (if c.startDwell = .stopped ∧ c.startMark = false then
        .running (s.cfg.compressor.startDwell * 1000) else c.startDwell) else .stopped
    let stopDwell := if ct = true then
      (if c.stopDwell = .stopped ∧ c.stopMark = false then
        .running (s.cfg.compressor.stopDwell * 1000) else c.stopDwell) else .stopped
    let startDue := cs && c.startMark
    let stopDue := ct && c.stopMark
    let judged := fun (startMark stopMark : Bool) => { s with compressor := { c with
      startDwell := startDwell, startMark := startMark, stopDwell := stopDwell, stopMark := stopMark } }
    let noStart := c.u1.state = .starting ∨ c.u2.state = .starting ∨
      (eligible s .one = false ∧ eligible s .two = false)
    let noStop := ∀ u, (c.unit u).lag = true → (c.unit u).minRunMark = false
    ((startDue = false ∨ noStart) → (stopDue = false ∨ noStop) →
      judgeOnce s = judged startDue stopDue) ∧
    (∀ u, startDue = true → c.u1.state ≠ .starting → c.u2.state ≠ .starting → eligible s u = true →
      (eligible s (otherUnit u) = false ∨
        (c.unit u).runSeconds < (c.unit (otherUnit u)).runSeconds ∨
        (u = .one ∧ (c.unit u).runSeconds = (c.unit (otherUnit u)).runSeconds)) →
      judgeOnce s = startRequest u (judged false stopDue)) ∧
    (∀ u, (startDue = false ∨ noStart) → stopDue = true →
      (c.unit u).lag = true → (c.unit (otherUnit u)).lag = false → (c.unit u).minRunMark = true →
      judgeOnce s = leaveTo u .cooldown (judged startDue false))) ∧
  (∀ s : Machine.State, s.compressor.trainDir = .inject →
    let t := judgeOnce s
    judgeDuty s =
      if t.compressor.u1.state = s.compressor.u1.state ∧
          t.compressor.u2.state = s.compressor.u2.state then t
      else judgeOnce t)

/-! ### Gas drying -/

/-- DRYER_INCREMENT_TAKE: in WITHDRAW, or RUNDOWN after withdrawal, the ON_LINE tower is loaded with the
increment's water and its residue carried, and a switch is judged; in any other state the increment is
taken and not loaded. A load outside 64 bits is the free value of log 11. -/
def Obligations.IncrementLoadsTheOnLineTower : Prop :=
  ∀ (x : Tower) (v : Int) (rest : List Int) (s : Machine.State), s.active = true →
    s.inbox.dryerIncrements = v :: rest →
    (s.dryer.tower x).state = .onLine → (s.dryer.tower (otherTower x)).state ≠ .onLine →
    let loading := s.direction.state = .withdraw ∨
      (s.direction.state = .rundown ∧ s.direction.remembered = .wd)
    let w := curveAt s.cfg.curves.water (s.qty .wellT).value
    let r := s.dryer.tower x
    let taken := { s with inbox := { s.inbox with dryerIncrements := rest } }
    (¬loading → exec .dryerIncrementTake s = .next taken) ∧
    (loading → exec .dryerIncrementTake s = .next (judgeSwitch { taken with
      dryer := s.dryer.setTower x { r with
        load := acc64 (r.load + ((v.natAbs * w + r.residue) / 1000 : Nat))
        residue := (v.natAbs * w + r.residue) % 1000 } }))

/-- The switch and the heater hand-over: in RUNNING, with the switch due and the other tower STANDBY, the
towers change places in one act; a tower in HOLD takes a free heater; otherwise nothing changes. -/
def Obligations.SwitchAndHandOver : Prop :=
  (∀ (old new : Tower) (s : Machine.State), new = otherTower old → s.startup.station = .running →
    (s.dryer.tower old).state = .onLine → (s.dryer.tower new).state = .standby →
    let load := decide ((15 * s.cfg.dryer.lmax * 1000 : Nat) ≤ 16 * (s.dryer.tower old).load)
    load = true ∨ s.dryer.offSpec = true →
    judgeSwitch s = post .towerSwitch
      (towerNumber new +
        256 * ((if load = true then 1 else 0) + (if s.dryer.offSpec = true then 2 else 0)))
      { s with
        dryer :=
          { (s.dryer.setTower old { s.dryer.tower old with
              state := .heating, regen := .running (s.cfg.dryer.heatTime * 60000)
              halfMark := false }).setTower new { s.dryer.tower new with
              state := .onLine, load := 0, residue := 0, regen := .stopped } with heater := some old }
        lines := { s.lines with requests := { s.lines.requests with
          twrA := decide (new = .a), twrB := decide (new = .b), heater := true } } }) ∧
  (∀ (x : Tower) (s : Machine.State), s.startup.station ≠ .running ∨
      ((s.dryer.tower x).state = .onLine ∧ (s.dryer.tower (otherTower x)).state ≠ .onLine ∧
        ((s.dryer.tower (otherTower x)).state ≠ .standby ∨
          (16 * (s.dryer.tower x).load < (15 * s.cfg.dryer.lmax * 1000 : Nat) ∧
            s.dryer.offSpec = false))) →
    judgeSwitch s = s) ∧
  (∀ (x : Tower) (s : Machine.State), s.startup.station = .running → s.dryer.heater = none →
    (s.dryer.tower (otherTower x)).state = .onLine → (s.dryer.tower x).state = .hold →
    handOver s = { s with
      dryer := { s.dryer.setTower x { s.dryer.tower x with
        state := .heating, regen := .running (s.cfg.dryer.heatTime * 60000), halfMark := false } with
        heater := some x }
      lines := { s.lines with requests := { s.lines.requests with
        twrA := decide (x = .b), twrB := decide (x = .a), heater := true } } }) ∧
  (∀ s : Machine.State, s.startup.station ≠ .running ∨ s.dryer.heater ≠ none ∨
      (s.dryer.a.state ≠ .hold ∧ s.dryer.b.state ≠ .hold) → handOver s = s)

/-- HALF_HEAT_POINT, HEAT_TIME_EXPIRY and COOL_TIME_EXPIRY of the tower that is not on line; CLEAR_TOWER by
the tower's state; DRYER_RUNNING_ENTRY: the hand-over, then the switch. -/
def Obligations.RegenerationClearAndEntryToRunning : Prop :=
  (∀ (x : Tower) (s : Machine.State), s.active = true →
     (s.dryer.tower (otherTower x)).state = .onLine → (s.dryer.tower x).regen ≠ .stopped →
     let r := s.dryer.tower x
     let q := { s.lines.requests with twrA := decide (x = .b), twrB := decide (x = .a), heater := false }
     (r.state = .heating → r.halfMark = false → s.dryer.heater = some x →
       (s.cfg.slots.regenT.fitted = false ∨
         ∃ v, s.usable .regenT = some v ∧ (s.cfg.dryer.regenTarget : Int) ≤ v) →
       exec (.halfHeatPoint x) s = .next { s with
         dryer := s.dryer.setTower x { r with halfMark := true }
         lines := { s.lines with requests := { q with heater := true } } }) ∧
     (∀ cause, r.state = .heating → r.halfMark = false → s.cfg.slots.regenT.fitted = true →
       ((s.usable .regenT = none ∧ cause = 1) ∨
         (∃ v, s.usable .regenT = some v ∧ v < (s.cfg.dryer.regenTarget : Int) ∧ cause = 2)) →
       exec (.halfHeatPoint x) s = .next (post .towerFault (towerNumber x + 256 * cause) { s with
         dryer :=
           { s.dryer.setTower x { r with state := .faulted, regen := .stopped, halfMark := true } with
             heater := none }
         lines := { s.lines with requests := q } })) ∧
     (r.state = .heating → r.halfMark = true → exec (.halfHeatPoint x) s = .next s) ∧
     (r.state = .heating → exec (.heatTimeExpiry x) s = .next { s with
       dryer :=
         { s.dryer.setTower x { r with
             state := .cooling, regen := .running (s.cfg.dryer.coolTime * 60000), halfMark := false } with
           heater := none }
       lines := { s.lines with requests := q } }) ∧
     (r.state = .cooling → s.dryer.heater = none →
       exec (.coolTimeExpiry x) s = .next (judgeSwitch { s with
         dryer := s.dryer.setTower x { r with
           state := .standby, load := 0, residue := 0, regen := .stopped }
         lines := { s.lines with requests := q } }))) ∧
  (∀ (x : Tower) (f : RxFrame) (rest : List RxFrame) (s : Machine.State), s.active = true →
    takeFrame .dryerUnit s.link.buffers = some (f, rest) → f.body = .clear (.tower x) →
    (s.dryer.tower x).state ≠ .faulted →
    exec .clearTower s = .next (post .clearRefused (towerNumber x + 3 + 256)
      { s with link := { s.link with buffers := rest } })) ∧
  (∀ (x : Tower) (f : RxFrame) (rest : List RxFrame) (s : Machine.State), s.active = true →
    takeFrame .dryerUnit s.link.buffers = some (f, rest) → f.body = .clear (.tower x) →
    (s.dryer.tower x).state = .faulted → (s.dryer.tower (otherTower x)).state = .onLine →
    s.dryer.heater = none →
    exec .clearTower s = .next (handOver { s with
      link := { s.link with buffers := rest }
      dryer := s.dryer.setTower x { s.dryer.tower x with state := .hold }
      lines := { s.lines with requests := { s.lines.requests with
        twrA := decide (x = .b), twrB := decide (x = .a), heater := false } } })) ∧
  (∀ s : Machine.State, s.active = true → s.inbox.runningToDryer = true →
    exec .dryerRunningEntry s = .next (judgeSwitch (handOver
      { s with inbox := { s.inbox with runningToDryer := false } })))

/-- DEW_OUT_UPDATE: the runs by the side of the band, and the off-spec flag on the third reading in a row
on a side or at once when DEW_OUT is unusable. -/
def Obligations.DewJudgementSetsAndClearsOffSpec : Prop :=
  ∀ (st : QState) (v : Int) (rest : List (QState × Int)) (s : Machine.State), s.active = true →
    s.inbox.dewUpdates = (st, v) :: rest →
    let lim := s.cfg.dryer.dewLimit
    let hys := (s.cfg.dryer.dewHysteresis : Int)
    let taken := { s with inbox := { s.inbox with dewUpdates := rest } }
    let up := min 3 (s.dryer.above + 1)
    let down := min 3 (s.dryer.below + 1)
    (st = .good → lim < v →
      exec .dewOutUpdate s = .next
        (if up = 3 ∧ s.dryer.offSpec = false then
          judgeSwitch (post .offSpecOn 1
            { taken with dryer := { s.dryer with above := up, below := 0, offSpec := true } })
        else { taken with dryer := { s.dryer with above := up, below := 0 } })) ∧
    (st = .good → v ≤ lim → v ≤ lim - hys →
      exec .dewOutUpdate s = .next
        (if down = 3 ∧ s.dryer.offSpec = true then
          post .offSpecOff 0
            { taken with dryer := { s.dryer with above := 0, below := down, offSpec := false } }
        else { taken with dryer := { s.dryer with above := 0, below := down } })) ∧
    (st = .good → v ≤ lim → lim - hys < v →
      exec .dewOutUpdate s = .next { taken with dryer := { s.dryer with above := 0, below := 0 } }) ∧
    (st = .held →
      exec .dewOutUpdate s = .next { taken with dryer := { s.dryer with above := 0, below := 0 } }) ∧
    (st = .none ∨ st = .failed →
      exec .dewOutUpdate s = .next
        (if s.dryer.offSpec = false then
          judgeSwitch (post .offSpecOn 2
            { taken with dryer := { s.dryer with above := 0, below := 0, offSpec := true } })
        else { taken with dryer := { s.dryer with above := 0, below := 0 } }))

/-! ### Rate sharing -/

/-- SHARE_CYCLE: one run of the computation from one reading; Q, last P and both availabilities stored,
DRYER_LIMIT set with the read of D_avail, P and d delivered, and one STATUS offered that carries them.
The train judges the new P before the STATUS is assembled (log 19). -/
def Obligations.ShareCycleStoresDeliversAndAnnounces : Prop :=
  ∀ s : Machine.State, s.active = true → s.share.timer ≠ .stopped →
    let o := shareCompute s.cfg.station
      { target := siteTarget s.accounts, cavernInj := cavernInj s, cavernWd := cavernWd s,
        cAvail := cAvail s, dAvail := dAvail s.cfg.dryer s.dryer,
        peers := (s.roster.filter (fun r => decide (r.state = .fresh))).map (fun r => r.last),
        ownFlow := s.meter.flow, dirState := s.direction.state,
        running := decide (s.startup.station = .running), q := s.share.q }
    let stored := { s with
      share := { s.share with q := o.q, lastP := o.p, lastAInj := o.aInj, lastAWd := o.aWd }
      dryer := { s.dryer with limit := taperApplies s.cfg.dryer s.dryer }
      inbox := { s.inbox with deliveries := s.inbox.deliveries ++ [(o.p, o.d)] } }
    let judged := judgeDuty stored
    let announced : StatusFields :=
      { dirCode := BitVec.ofNat 8 (dirCode s.direction.state s.direction.remembered)
        flags := statusFlags judged
        aInj := o.aInj, aWd := o.aWd, flow := s.meter.flow, p := o.p
        openSeq := s.accounts.openSeq, digest := digest s.accounts
        signature := s.startup.signature }
    exec .shareCycle s =
      .next { judged with link := offerStatus (statusPayload announced) s.link }

/-- The STATUS layout; each STATUS flag is set when its condition holds, the two unused bits are 0, and the
offer that carries RX_OVERRUN clears it. T is the sum of the present OPEN nominations, 0 while UNSYNCED;
the digest sums the CRC-16 of each present OPEN nomination's five bytes. -/
def Obligations.AnnouncedFieldsReportTheirOwners : Prop :=
  (∀ f : StatusFields, statusPayload f =
    [f.dirCode] ++ putU 2 f.flags.toNat ++ putU 3 f.aInj ++ putU 3 f.aWd ++ putS 3 f.flow ++
      putU 3 f.p ++ putU 2 f.openSeq.toNat ++ putU 2 f.digest.toNat ++ putU 2 f.signature.toNat) ∧
  (∀ (payload : List Byte) (l : Link), (offerStatus payload l).overrun = false) ∧
  (∀ s : Machine.State,
     (statusFlags s).getLsbD 15 = decide (s.startup.station = .listening) ∧
     (statusFlags s).getLsbD 14 = decide (s.direction.state = .tripped) ∧
     (statusFlags s).getLsbD 13 = s.dryer.offSpec ∧
     (statusFlags s).getLsbD 12 = s.events.lost ∧
     (statusFlags s).getLsbD 11 = s.link.overrun ∧
     (statusFlags s).getLsbD 10 = decide (s.accounts.sync = .ownClock) ∧
     (statusFlags s).getLsbD 9 = decide (s.accounts.sync = .unsynced) ∧
     (statusFlags s).getLsbD 8 = decide (s.compressor.u1.state = .running) ∧
     (statusFlags s).getLsbD 7 = decide (s.compressor.u2.state = .running) ∧
     (statusFlags s).getLsbD 6 = decide (s.compressor.u1.state = .lockout ∨
       s.compressor.u2.state = .lockout) ∧
     (statusFlags s).getLsbD 5 = s.dryer.limit ∧
     ((statusFlags s).getLsbD 4 = true ↔ ∃ q, (s.qty q).state = .failed) ∧
     (statusFlags s).getLsbD 3 = s.accounts.cursor.isSome ∧
     (statusFlags s).getLsbD 2 = (s.meter.injCap || s.meter.wdCap) ∧
     (statusFlags s).getLsbD 1 = false ∧ (statusFlags s).getLsbD 0 = false) ∧
  (∀ a : Accounts,
     (a.sync = .unsynced → siteTarget a = 0) ∧
     (a.sync ≠ .unsynced →
       siteTarget a = (a.openTable.map (fun e => e.nomination.getD 0)).sum) ∧
     digest a = ((a.recs.zip a.openTable).map (fun (r, e) =>
       match e.nomination with
       | some n => crc16 ([BitVec.ofNat 8 (r.code / 256), BitVec.ofNat 8 r.code] ++ putS 3 n)
       | none => 0)).sum)

/-- The stages of the share computation: direction, own availability, site availability, base share, the
two divisions of the trim, its bound, the back-calculation and the minimum flow. That S adds the FRESH
peers' fields in every station state, LISTENING too, is the model's reading (log 32). -/
def Obligations.ShareStagesFollowTheRules : Prop :=
  (∀ (c : StationCfg) (i : ShareIn),
    let o := shareCompute c i
    ((c.deadband : Int) ≤ i.target → o.d = .inj) ∧
    (¬(c.deadband : Int) ≤ i.target → i.target ≤ -(c.deadband : Int) → o.d = .wd) ∧
    (¬(c.deadband : Int) ≤ i.target → ¬i.target ≤ -(c.deadband : Int) → o.d = .hold) ∧
    o.aInj = (if i.running = true ∧ i.dirState ≠ .tripped then min i.cavernInj i.cAvail else 0) ∧
    o.aWd = (if i.running = true ∧ i.dirState ≠ .tripped then min i.cavernWd i.dAvail else 0) ∧
    ownAvail .inj i = o.aInj ∧ ownAvail .wd i = o.aWd ∧ ownAvail .hold i = 0 ∧
    siteAvail .inj i = o.aInj + (i.peers.map (fun f => f.aInj)).sum ∧
    siteAvail .wd i = o.aWd + (i.peers.map (fun f => f.aWd)).sum ∧
    siteAvail .hold i = 0 ∧
    (∀ (d : Dir) (site : Nat), trimApplies d i.dirState site = true ↔
      (d = .inj ∧ i.dirState = .inject ∨ d = .wd ∧ i.dirState = .withdraw) ∧ 0 < site) ∧
    siteFlow .inj i = i.ownFlow + (i.peers.map (fun f => f.flow)).sum ∧
    siteFlow .wd i = -(i.ownFlow + (i.peers.map (fun f => f.flow)).sum) ∧
    (let own := ownAvail o.d i
    let site := siteAvail o.d i
    let base := baseShare i.target.natAbs own site
    let formed := if trimApplies o.d i.dirState site = true then
        backCalculate own base (heldWithin (own / 4)
          (i.q + trimStep c.trimShift own site ((i.target.natAbs : Int) - siteFlow o.d i)))
      else (base, 0)
    o.q = formed.2 ∧ o.p = minFlow c.fmin own formed.1)) ∧
  (∀ m own site : Nat,
    (site = 0 → baseShare m own site = 0) ∧
    (0 < site → site ≤ m → baseShare m own site = own) ∧
    (0 < site → m < site → baseShare m own site = m * own / site)) ∧
  (∀ (g own site : Nat) (e : Int),
    trimStep g own site e = ((e * own).tdiv site).tdiv ((2 : Int) ^ g)) ∧
  (∀ (bound : Nat) (x : Int),
    ((bound : Int) < x → heldWithin bound x = bound) ∧
    (x < -(bound : Int) → heldWithin bound x = -(bound : Int)) ∧
    (-(bound : Int) ≤ x → x ≤ bound → heldWithin bound x = x)) ∧
  (∀ (own base : Nat) (q : Int),
    ((own : Int) < base + q → backCalculate own base q = (own, (own : Int) - base)) ∧
    ((base : Int) + q < 0 → backCalculate own base q = (0, -(base : Int))) ∧
    (0 ≤ (base : Int) + q → (base : Int) + q ≤ own →
      backCalculate own base q = (((base : Int) + q).toNat, q))) ∧
  (∀ fmin own p : Nat,
    (0 < p → p < fmin → fmin ≤ 2 * p → fmin ≤ own → minFlow fmin own p = fmin) ∧
    (0 < p → p < fmin → ¬(fmin ≤ 2 * p ∧ fmin ≤ own) → minFlow fmin own p = 0) ∧
    (p = 0 ∨ fmin ≤ p → minFlow fmin own p = p))

/-- Every step keeps the stored setpoint within the larger of the two availabilities stored with it. The
setpoint formed never exceeds the availability it was formed with and is 0 in HOLD; where the trim
applies, the stored Q lies within a quarter of A_own and B + Q is the setpoint before the minimum flow
stage; where it does not, Q is 0. -/
def Obligations.SetpointStaysWithinOwnAvailability : Prop :=
  (∀ s t : Machine.State, s.share.lastP ≤ max s.share.lastAInj s.share.lastAWd → step s = .next t →
    t.share.lastP ≤ max t.share.lastAInj t.share.lastAWd) ∧
  ∀ (c : StationCfg) (i : ShareIn),
    let o := shareCompute c i
    let own := ownAvail o.d i
    let site := siteAvail o.d i
    let base := baseShare i.target.natAbs own site
    o.p ≤ own ∧ (o.d = .hold → o.p = 0) ∧
    (trimApplies o.d i.dirState site = true →
      -((own / 4 : Nat) : Int) ≤ o.q ∧ o.q ≤ ((own / 4 : Nat) : Int) ∧
      0 ≤ (base : Int) + o.q ∧ (base : Int) + o.q ≤ own ∧
      o.p = minFlow c.fmin own ((base : Int) + o.q).toNat) ∧
    (trimApplies o.d i.dirState site = false → o.q = 0 ∧ o.p = minFlow c.fmin own base)

/-! ### Direction and ramp -/

/-- What each entry to a direction state does to the Direction Controller, its lines and its
neighbours. -/
def Obligations.EntriesSetLinesTimersAndNeighbours : Prop :=
  (∀ (f : Machine.Flow) (s : Machine.State), s.direction.r ≠ 0 →
    enterRundown f s = { s with
      direction := { s.direction with
        state := .rundown, remembered := f, phase := .ramp
        duty := min 1000 (s.direction.r * 1000 / s.cfg.station.rfull)
        lineupTimer := .stopped, holdTimer := .stopped, closeTimer := .stopped, settle := .stopped }
      inbox := { s.inbox with dirChanges := s.inbox.dirChanges ++ [(.rundown, f)] } }) ∧
  (∀ (f : Machine.Flow) (s : Machine.State), s.direction.r = 0 →
    let closing := { s with
      direction := { s.direction with
        state := .rundown, remembered := f, phase := .close, duty := 0
        lineupTimer := .stopped, holdTimer := .stopped, rampTimer := .stopped, settle := .stopped
        closeTimer := .running (s.cfg.station.closeTimeout * 1000) }
      lines := { s.lines with requests := { s.lines.requests with
        whv := false, injv := false, wdv := false, tripOut := false } }
      inbox := { s.inbox with dirChanges := s.inbox.dirChanges ++ [(.rundown, f)] } }
    enterRundown f s = if whvClosed s = true then enterIdle closing else closing) ∧
  (∀ s : Machine.State,
    enterIdle s = judgeExit { s with
      direction := { s.direction with
        state := .idle, duty := 0
        settle := if s.cfg.station.settleTime = 0 then .stopped
          else .running (s.cfg.station.settleTime * 1000)
        settleMark := decide (s.cfg.station.settleTime = 0)
        lineupTimer := .stopped, holdTimer := .stopped, closeTimer := .stopped, rampTimer := .stopped }
      lines := { s.lines with requests := { s.lines.requests with
        whv := false, injv := false, wdv := false, tripOut := false } }
      inbox := { s.inbox with
        dirChanges := s.inbox.dirChanges ++ [(.idle, s.direction.remembered)]
        meterEntries := s.inbox.meterEntries ++ [.idle] } }) ∧
  (∀ (cause : TripCause) (s : Machine.State),
    enterTripped cause s = post .trip
      ((match cause with
        | .estop => 1
        | .valve => 2
        | .lineup => 3) + 256 * dirCode s.direction.state s.direction.remembered)
      { s with
        direction := { s.direction with
          state := .tripped, r := 0, duty := 0, cause := some cause
          lineupTimer := .stopped, holdTimer := .stopped, closeTimer := .stopped
          rampTimer := .stopped, settle := .stopped }
        lines := { s.lines with requests := { s.lines.requests with
          whv := false, injv := false, wdv := false, tripOut := true } }
        inbox := { s.inbox with
          dirChanges := s.inbox.dirChanges ++ [(.tripped, s.direction.remembered)]
          meterEntries := s.inbox.meterEntries ++ [.tripped] } })

/-- The exit from IDLE, the entry to a lineup, its completion, and the entry to INJECT or WITHDRAW. -/
def Obligations.LineupsOpenCompleteAndFlow : Prop :=
  (∀ (f : Machine.Flow) (s : Machine.State), s.direction.state = .idle →
    s.direction.heldD = (if f = .inj then .inj else .wd) →
    (judgeExit s =
      if 0 < s.direction.heldP ∧ s.startup.station = .running ∧
          (s.direction.lastFlow = none ∨ s.direction.lastFlow = some f ∨
            s.direction.settleMark = true) then enterLineup f s
      else s)) ∧
  (∀ s : Machine.State, s.direction.state ≠ .idle ∨ s.direction.heldD = .hold → judgeExit s = s) ∧
  (∀ (f : Machine.Flow) (s : Machine.State),
    enterLineup f s = judgeLineup { s with
      direction := { s.direction with
        state := if f = .inj then .lineupInj else .lineupWd
        duty := 0, lineupTimer := .running (s.cfg.station.lineupTimeout * 1000)
        holdTimer := .stopped, closeTimer := .stopped, rampTimer := .stopped, settle := .stopped }
      lines := { s.lines with requests := { s.lines.requests with
        whv := true, injv := decide (f = .inj), wdv := decide (f = .wd), tripOut := false } }
      inbox := { s.inbox with dirChanges := s.inbox.dirChanges ++
        [(if f = .inj then .lineupInj else .lineupWd, s.direction.remembered)] } }) ∧
  (∀ s : Machine.State,
    (s.direction.state = .lineupInj → judgeLineup s =
      if s.level .whvOpenFb = true ∧ s.level .whvClosedFb = false ∧ s.level .injvFb = true ∧
          (s.compressor.u1.state = .running ∨ s.compressor.u2.state = .running) then enterFlow .inj s
      else s) ∧
    (s.direction.state = .lineupWd → judgeLineup s =
      if s.level .whvOpenFb = true ∧ s.level .whvClosedFb = false ∧ s.level .wdvFb = true then
        enterFlow .wd s
      else s)) ∧
  (∀ (f : Machine.Flow) (s : Machine.State),
    enterFlow f s = post .directionChange (if f = .inj then 1 else 2) { s with
      direction := { s.direction with
        state := if f = .inj then .inject else .withdraw
        r := 0, duty := 0, lineupFails := 0, lastFlow := some f, rampTimer := .running 250
        lineupTimer := .stopped, closeTimer := .stopped, settle := .stopped
        holdTimer := if s.direction.heldD = .hold ∨ s.direction.heldP = 0 then
          .running (s.cfg.station.holdTime * 1000) else .stopped }
      lines := { s.lines with requests := { s.lines.requests with
        whv := true, injv := decide (f = .inj), wdv := decide (f = .wd), tripOut := false } }
      inbox := { s.inbox with dirChanges := s.inbox.dirChanges ++
        [(if f = .inj then .inject else .withdraw, s.direction.remembered)] } })

/-- SHARE_DELIVERY replaces held P and held d and is judged by the direction state. -/
def Obligations.DeliveryIsJudgedByDirectionState : Prop :=
  ∀ (p : Nat) (d : Dir) (rest : List (Nat × Dir)) (s : Machine.State), s.active = true →
    s.inbox.deliveries = (p, d) :: rest →
    let held := { s with
      inbox := { s.inbox with deliveries := rest }
      direction := { s.direction with heldP := p, heldD := d } }
    (s.direction.state = .idle → exec .shareDelivery s = .next (judgeExit held)) ∧
    (s.direction.state = .rundown ∨ s.direction.state = .tripped →
      exec .shareDelivery s = .next held) ∧
    (s.direction.state = .lineupInj → exec .shareDelivery s = .next
      (if d = .inj then held else enterRundown .inj held)) ∧
    (s.direction.state = .lineupWd → exec .shareDelivery s = .next
      (if d = .wd then held else enterRundown .wd held)) ∧
    (∀ f : Machine.Flow, s.direction.state = (if f = .inj then .inject else .withdraw) →
      (d = (if f = .inj then .wd else .inj) → exec .shareDelivery s = .next (enterRundown f held)) ∧
      (d ≠ (if f = .inj then .wd else .inj) → exec .shareDelivery s = .next { held with
        direction := { held.direction with
          holdTimer :=
            if d = .hold ∨ p = 0 then
              (if s.direction.holdTimer = .stopped then .running (s.cfg.station.holdTime * 1000)
              else s.direction.holdTimer)
            else .stopped } }))

/-- COMPRESSOR_NOTICE replaces held C_run; a leaving notice lowers R at once where it is bounded, an
entry notice judges a lineup to injection. That an entry notice leaves R as it stands, even above its
C_run, is DEDUCED (log 26), as is that the lineup is judged by the unit records as they stand
(log 21). -/
def Obligations.NoticeReplacesHeldCrunAndLowersR : Prop :=
  ∀ (n : Notice) (rest : List Notice) (s : Machine.State), s.active = true →
    s.inbox.notices = n :: rest →
    let held := { s with
      inbox := { s.inbox with notices := rest }
      direction := { s.direction with heldCrun := n.cRun } }
    let bounded := s.direction.state = .inject ∨
      (s.direction.state = .rundown ∧ s.direction.remembered = .inj)
    let lowered := { held with direction := { held.direction with
      r := n.cRun, duty := min 1000 (n.cRun * 1000 / s.cfg.station.rfull) } }
    (n.entered = true → s.direction.state = .lineupInj →
      exec .compressorNotice s = .next (judgeLineup held)) ∧
    (n.entered = true → s.direction.state ≠ .lineupInj → exec .compressorNotice s = .next held) ∧
    (n.entered = false → ¬(bounded ∧ n.cRun < s.direction.r) →
      exec .compressorNotice s = .next held) ∧
    (n.entered = false → bounded → n.cRun < s.direction.r →
      exec .compressorNotice s = .next
        (if s.direction.state = .rundown ∧ s.direction.phase = .ramp ∧ n.cRun = 0 then
          beginClose lowered else lowered))

/-- RAMP_STEP: held C_run replaced and R clamped to it where it is bounded, R moved toward its target by
the rounded-up step held at Δmax, the duty set, and phase CLOSE begun where a rundown reaches 0. R never
passes its target and always moves toward it. -/
def Obligations.RampStepMovesRTowardItsTarget : Prop :=
  (∀ s : Machine.State, s.active = true → s.direction.rampTimer ≠ .stopped →
    s.direction.state = .inject ∨ s.direction.state = .withdraw ∨ s.direction.state = .rundown →
    let run := cRun s
    let bounded := s.direction.state = .inject ∨
      (s.direction.state = .rundown ∧ s.direction.remembered = .inj)
    let r1 := if bounded then min s.direction.r run else s.direction.r
    let target := if s.direction.state = .inject then min s.direction.heldP run
      else if s.direction.state = .withdraw then s.direction.heldP else 0
    let distance := if r1 < target then target - r1 else r1 - target
    let size := min s.cfg.station.deltaMax ((distance * s.cfg.station.alpha + 31) / 32)
    let r2 := if r1 < target then r1 + size else r1 - size
    let moved := { s with direction := { s.direction with
      heldCrun := run, r := r2, duty := min 1000 (r2 * 1000 / s.cfg.station.rfull) } }
    exec .rampStep s = .next
      (if s.direction.state = .rundown ∧ s.direction.phase = .ramp ∧ r2 = 0 then beginClose moved
      else moved)) ∧
  (∀ alpha deltaMax r target : Nat, 1 ≤ alpha → alpha ≤ 32 → 1 ≤ deltaMax →
    (r < target → r < moveR alpha deltaMax r target ∧ moveR alpha deltaMax r target ≤ target) ∧
    (target < r → moveR alpha deltaMax r target < r ∧ target ≤ moveR alpha deltaMax r target) ∧
    (r = target → moveR alpha deltaMax r target = r))

/-- When WHV is confirmed closed. VALVE_FEEDBACK_CHANGE, SETTLE_TIMER_EXPIRY and DIRECTION_RUNNING_ENTRY are judgement points of a
lineup, of phase CLOSE and of the exit from IDLE. -/
def Obligations.FeedbackSettleAndEntryAreJudgementPoints : Prop :=
  (∀ s : Machine.State, whvClosed s = true ↔
    s.level .whvClosedFb = true ∧ s.level .whvOpenFb = false) ∧
  (∀ (fb : ValveFb) (lvl : Bool) (rest : List (Role × Bool)) (s : Machine.State), s.active = true →
    takeChange (valveRole fb) s.inbox.lineChanges = some (lvl, rest) →
    let taken := { s with inbox := { s.inbox with lineChanges := rest } }
    (s.direction.state = .lineupInj ∨ s.direction.state = .lineupWd →
      exec (.valveFeedbackChange fb) s = .next (judgeLineup taken)) ∧
    (s.direction.state = .rundown → s.direction.phase = .close →
      exec (.valveFeedbackChange fb) s = .next
        (if s.level .whvClosedFb = true ∧ s.level .whvOpenFb = false then enterIdle taken
        else taken)) ∧
    (s.direction.state ∈ [DirState.idle, .inject, .withdraw, .tripped] ∨
        (s.direction.state = .rundown ∧ s.direction.phase = .ramp) →
      exec (.valveFeedbackChange fb) s = .next taken)) ∧
  (∀ s : Machine.State, s.active = true → s.direction.settle ≠ .stopped →
    exec .settleTimerExpiry s = .next (judgeExit { s with
      direction := { s.direction with settle := .stopped, settleMark := true } })) ∧
  (∀ s : Machine.State, s.active = true → s.inbox.runningToDirection = true →
    exec .directionRunningEntry s = .next (judgeExit
      { s with inbox := { s.inbox with runningToDirection := false } }))

/-- ESTOP_IN trips from every state but TRIPPED, its release changes nothing; a trip is cleared by CLEAR
TRIP or CLEAR_IN when ESTOP_IN is released and WHV confirmed closed, else refused with its reason. -/
def Obligations.EmergencyStopTripsAndClearsAreJudged : Prop :=
  (∀ (rest : List (Role × Bool)) (s : Machine.State), s.active = true →
    takeChange .estopIn s.inbox.lineChanges = some (true, rest) →
    exec .estopInAssertion s = .next
      (if s.direction.state = .tripped then { s with inbox := { s.inbox with lineChanges := rest } }
      else enterTripped .estop { s with inbox := { s.inbox with lineChanges := rest } })) ∧
  (∀ (rest : List (Role × Bool)) (s : Machine.State), s.active = true →
    takeChange .estopIn s.inbox.lineChanges = some (false, rest) →
    exec .estopInRelease s = .next { s with inbox := { s.inbox with lineChanges := rest } }) ∧
  (∀ (f : RxFrame) (rest : List RxFrame) (s : Machine.State), s.active = true →
    takeFrame .directionController s.link.buffers = some (f, rest) →
    let taken := { s with link := { s.link with buffers := rest } }
    let cleared := { taken with direction := { s.direction with cause := none, lineupFails := 0 } }
    (s.direction.state ≠ .tripped → exec .clearTrip s = .next (post .clearRefused 257 taken)) ∧
    (s.direction.state = .tripped → s.level .estopIn = true →
      exec .clearTrip s = .next (post .clearRefused 513 taken)) ∧
    (s.direction.state = .tripped → s.level .estopIn = false → whvClosed s = false →
      exec .clearTrip s = .next (post .clearRefused 769 taken)) ∧
    (s.direction.state = .tripped → s.level .estopIn = false → whvClosed s = true →
      exec .clearTrip s = .next (enterIdle
        (post .tripCleared (causeCodeOf s.direction.cause + 256) cleared)))) ∧
  (∀ (rest : List (Role × Bool)) (s : Machine.State), s.active = true →
    takeChange .clearIn s.inbox.lineChanges = some (true, rest) →
    let taken := { s with inbox := { s.inbox with lineChanges := rest } }
    let cleared := { taken with direction := { s.direction with cause := none, lineupFails := 0 } }
    (s.direction.state ≠ .tripped → exec .clearInAssertion s = .next taken) ∧
    (s.direction.state = .tripped → s.level .estopIn = true →
      exec .clearInAssertion s = .next (post .clearRefused 512 taken)) ∧
    (s.direction.state = .tripped → s.level .estopIn = false → whvClosed s = false →
      exec .clearInAssertion s = .next (post .clearRefused 768 taken)) ∧
    (s.direction.state = .tripped → s.level .estopIn = false → whvClosed s = true →
      exec .clearInAssertion s = .next (enterIdle
        (post .tripCleared (causeCodeOf s.direction.cause + 512) cleared))))

/-- LINEUP_TIMER_EXPIRY, HOLD_TIMER_EXPIRY and CLOSE_TIMER_EXPIRY. -/
def Obligations.LineupHoldAndCloseTimersAct : Prop :=
  (∀ (f : Machine.Flow) (s : Machine.State), s.active = true → s.direction.lineupTimer ≠ .stopped →
    s.direction.state = (if f = .inj then .lineupInj else .lineupWd) →
    let n := s.direction.lineupFails + 1
    let open_ := s.level .whvOpenFb = true ∧ s.level .whvClosedFb = false
    let line := s.level (if f = .inj then .injvFb else .wdvFb) = true
    let unit := f = .wd ∨ s.compressor.u1.state = .running ∨ s.compressor.u2.state = .running
    let failed := post .lineupFail
      ((if open_ then 0 else 1) + (if line then 0 else 2) + (if unit then 0 else 4) + 256 * n)
      { s with direction := { s.direction with lineupFails := n, lineupTimer := .stopped } }
    exec .lineupTimerExpiry s = .next
      (if n < 3 then enterRundown f failed else enterTripped .lineup failed)) ∧
  (∀ (f : Machine.Flow) (s : Machine.State), s.active = true → s.direction.holdTimer ≠ .stopped →
    s.direction.state = (if f = .inj then .inject else .withdraw) →
    exec .holdTimerExpiry s = .next (enterRundown f s)) ∧
  (∀ s : Machine.State, s.active = true → s.direction.closeTimer ≠ .stopped →
    exec .closeTimerExpiry s = .next (enterTripped .valve s))

/-! ### Accounts -/

/-- SETUP: code 0 and a full store are refused with ACCT_FULL; a found account takes the rights and its
OPEN and PENDING nominations are clamped again; a new account is made at the top free index and appended
to its bucket's chain. -/
def Obligations.SetupMakesOrChangesAnAccount : Prop :=
  ∀ (code injR wdR : Nat) (f : RxFrame) (rest : List RxFrame) (s : Machine.State), s.active = true →
    takeFrame .accountStore s.link.buffers = some (f, rest) → f.body = .setup code injR wdR →
    let taken := { s with link := { s.link with buffers := rest } }
    let a := s.accounts
    let b := code % 16
    (code = 0 → exec .setup s = .next (post .acctFull 0 taken)) ∧
    (code ≠ 0 → lookup a code = none → a.stack = [] →
      exec .setup s = .next (post .acctFull code taken)) ∧
    (∀ i free, code ≠ 0 → lookup a code = none → a.stack = i :: free →
      let made := a.recs.set i
        { present := true, code := code, injRight := injR, wdRight := wdR, opening := 0, net := 0
          fuel := 0, offSpec := 0, link := none }
      (a.buckets.getD b none = none → exec .setup s = .next { taken with
        accounts := { a with stack := free, recs := made, buckets := a.buckets.set b (some i) } }) ∧
      (∀ head, a.buckets.getD b none = some head →
        let last := chainEnd made 48 head
        exec .setup s = .next { taken with accounts := { a with
          stack := free
          recs := made.set last { made.getD last AccRec.blank with link := some i } } })) ∧
    (∀ i, code ≠ 0 → lookup a code = some i → a.openT ≠ a.pendingT →
      ∃ t, exec .setup s = .next t ∧
        t.accounts.recs = a.recs.set i { a.acc i with injRight := injR, wdRight := wdR } ∧
        (∀ x j, j ≠ i ∨ x = a.closedT ∧ x ≠ a.openT ∧ x ≠ a.pendingT →
          t.accounts.entry x j = a.entry x j) ∧
        (∀ x, x = a.openT ∨ x = a.pendingT → i < (a.table x).length →
          t.accounts.entry x i =
            match (a.entry x i).nomination with
            | none => a.entry x i
            | some n =>
              let m := max (-(wdR : Int)) (min injR n)
              { a.entry x i with
                nomination := some m, curtailed := (a.entry x i).curtailed || decide (m ≠ n) }) ∧
        t.accounts = { a with
          recs := t.accounts.recs, p0 := t.accounts.p0, p1 := t.accounts.p1, p2 := t.accounts.p2 } ∧
        t.link = taken.link ∧
        t.events = (postAll
          ((match (a.entry a.openT i).nomination with
            | some n => if max (-(wdR : Int)) (min injR n) = n then []
              else [(.nomCurtailed, (a.acc i).code)]
            | none => []) ++
          (match (a.entry a.pendingT i).nomination with
            | some n => if max (-(wdR : Int)) (min injR n) = n then []
              else [(.nomCurtailed, (a.acc i).code)]
            | none => [])) s).events ∧
        KeepsAllBut [.link, .accounts, .events] s t)

/-- BALANCE replaces the opening balance of a found account and nothing else; code 0 or a code not found
is refused. -/
def Obligations.BalanceReplacesTheOpeningBalance : Prop :=
  ∀ (code : Nat) (amount : Int) (f : RxFrame) (rest : List RxFrame) (s : Machine.State),
    s.active = true → takeFrame .accountStore s.link.buffers = some (f, rest) →
    f.body = .balance code amount →
    let taken := { s with link := { s.link with buffers := rest } }
    (∀ i, code ≠ 0 → lookup s.accounts code = some i →
      exec .balance s = .next { taken with accounts := { s.accounts with
        recs := s.accounts.recs.set i { s.accounts.acc i with opening := amount } } }) ∧
    (code = 0 ∨ lookup s.accounts code = none →
      exec .balance s = .next (post .balanceRefused code taken))

/-- RETIRE: refused with the reason of the first check that fails; else the totals go to the holding
account, the record is unlinked and cleared, its marks cleared and its index freed. -/
def Obligations.RetireChecksThenFreesTheAccount : Prop :=
  ∀ (code : Nat) (f : RxFrame) (rest : List RxFrame) (s : Machine.State), s.active = true →
    takeFrame .accountStore s.link.buffers = some (f, rest) → f.body = .retire code →
    let taken := { s with link := { s.link with buffers := rest } }
    let a := s.accounts
    (code = 0 ∨ lookup a code = none → exec .retire s = .next (post .retireRefused 1 taken)) ∧
    (∀ i, code ≠ 0 → lookup a code = some i →
      let nominated := ∃ x : TableId, (a.entry x i).nomination ≠ none
      let columns := ∃ x : TableId, (a.entry x i).injected ≠ 0 ∨ (a.entry x i).withdrawn ≠ 0 ∨
        (a.entry x i).fuel ≠ 0 ∨ (a.entry x i).offSpec ≠ 0
      let held := acc64 ((a.acc i).opening + (a.acc i).net) ≠ 0
      (nominated → exec .retire s = .next (post .retireRefused 2 taken)) ∧
      (¬nominated → columns → exec .retire s = .next (post .retireRefused 3 taken)) ∧
      (¬nominated → ¬columns → held → exec .retire s = .next (post .retireRefused 4 taken)) ∧
      (¬nominated → ¬columns → ¬held → i ≠ 0 → i < a.recs.length →
        ∃ t, exec .retire s = .next t ∧
          t.accounts.acc i = AccRec.blank ∧
          (t.accounts.acc 0).net = accAdd (a.acc 0).net (a.acc i).net ∧
          (t.accounts.acc 0).fuel = accAdd (a.acc 0).fuel (a.acc i).fuel ∧
          (t.accounts.acc 0).offSpec = accAdd (a.acc 0).offSpec (a.acc i).offSpec ∧
          (t.accounts.acc 0).present = (a.acc 0).present ∧ (t.accounts.acc 0).code = (a.acc 0).code ∧
          (∀ j, j ≠ 0 → j ≠ i → t.accounts.acc j = { a.acc j with
            link := if (a.acc j).link = some i then (a.acc i).link else (a.acc j).link }) ∧
          t.accounts.buckets = a.buckets.map (fun h => if h = some i then (a.acc i).link else h) ∧
          t.accounts.stack = i :: a.stack ∧
          (∀ x j, t.accounts.entry x j = { a.entry x j with
            curtailed := (a.entry x j).curtailed && decide (j ≠ i) }) ∧
          t.accounts = { a with
            recs := t.accounts.recs, buckets := t.accounts.buckets, stack := t.accounts.stack
            p0 := t.accounts.p0, p1 := t.accounts.p1, p2 := t.accounts.p2 } ∧
          t.link = taken.link ∧ KeepsAllBut [.link, .accounts] s t))

/-- NOMINATE: refused with the first reason that holds; else the rate, clamped to the account's right in
its direction, is placed in the OPEN or the PENDING entry by its sequence. -/
def Obligations.NominateClampsAndPlaces : Prop :=
  ∀ (seq : Word16) (code : Nat) (rate : Int) (f : RxFrame) (rest : List RxFrame) (s : Machine.State),
    s.active = true → takeFrame .accountStore s.link.buffers = some (f, rest) →
    f.body = .nominate seq code rate →
    let taken := { s with link := { s.link with buffers := rest } }
    let a := s.accounts
    (a.sync = .unsynced → exec .nominate s = .next (post .nomRefused 1 taken)) ∧
    (a.sync ≠ .unsynced → code = 0 ∨ lookup a code = none →
      exec .nominate s = .next (post .nomRefused 2 taken)) ∧
    (∀ i, a.sync ≠ .unsynced → code ≠ 0 → lookup a code = some i →
      (seq ≠ a.openSeq → seq ≠ a.openSeq + 1 →
        exec .nominate s = .next (post .nomRefused 3 taken)) ∧
      (∀ x, (seq = a.openSeq ∧ x = a.openT) ∨ (seq = a.openSeq + 1 ∧ x = a.pendingT) →
        let m := max (-((a.acc i).wdRight : Int)) (min (a.acc i).injRight rate)
        exec .nominate s = .next (postAll
          (if m = rate then [] else [(.nomCurtailed, (a.acc i).code)])
          { taken with accounts := a.setEntry x i { a.entry x i with
            nomination := some m, curtailed := decide (m ≠ rate) } })))

/-- MARK by the sync state and the distance of its sequence. -/
def Obligations.MarkAdoptsRealignsOrRotates : Prop :=
  ∀ (seq : Word16) (elapsed : Nat) (f : RxFrame) (rest : List RxFrame) (s : Machine.State),
    s.active = true → takeFrame .accountStore s.link.buffers = some (f, rest) →
    f.body = .mark seq elapsed →
    let taken := { s with link := { s.link with buffers := rest } }
    let distance := (seq - s.accounts.openSeq).toNat
    let realign := fun (x : Machine.State) => { x with accounts := { x.accounts with
      sync := .marked, grace := .stopped
      period := .running ((s.cfg.periodMinutes * 60 - elapsed) * 1000) } }
    (s.accounts.sync = .unsynced → exec .mark s = .next
      (realign { taken with accounts := { s.accounts with openSeq := seq } })) ∧
    (s.accounts.sync ≠ .unsynced → distance = 0 → exec .mark s = .next (realign taken)) ∧
    (s.accounts.sync ≠ .unsynced → distance = 1 →
      exec .mark s = .next (realign (rotate seq taken))) ∧
    (s.accounts.sync ≠ .unsynced → 2 ≤ distance → distance ≤ 32767 →
      exec .mark s = .next (realign (post .periodSkip (distance - 1) (rotate seq taken)))) ∧
    (s.accounts.sync ≠ .unsynced → 32768 ≤ distance → exec .mark s = .next taken)

/-- PERIOD_TIMER_EXPIRY starts the grace timer; GRACE_TIMER_EXPIRY rotates on the store's own clock; a
rotation cuts a closing report short, moves the roles, carries nominations forward, posting
NOM_CURTAILED for each that the clamp cuts back, and starts the cursor. That those events come in account
index order is DEDUCED (log 22). -/
def Obligations.GraceExpiryRotatesOnTheOwnClock : Prop :=
  (∀ s : Machine.State, s.active = true → s.accounts.period ≠ .stopped →
    exec .periodTimerExpiry s = .next { s with accounts := { s.accounts with
      period := .stopped, grace := .running (s.cfg.grace * 1000) } }) ∧
  (∀ s : Machine.State, s.active = true → s.accounts.grace ≠ .stopped →
    let seq := s.accounts.openSeq + 1
    let t := rotate seq s
    exec .graceTimerExpiry s = .next (post .periodOwnClock seq.toNat { t with
      accounts := { t.accounts with
        sync := .ownClock, grace := .stopped
        period := .running ((s.cfg.periodMinutes * 60 - s.cfg.grace) * 1000) } })) ∧
  (∀ (seq : Word16) (s : Machine.State),
    let a := s.accounts
    let t := rotate seq s
    a.recs.length = 49 → a.p0.length = 49 → a.p1.length = 49 → a.p2.length = 49 →
    a.openT ≠ a.pendingT → a.pendingT ≠ a.closedT → a.closedT ≠ a.openT →
    (a.reporting = true ↔ a.cursor ≠ none) →
    (a.reporting = false → a.table a.closedT = List.replicate 49 Entry.blank) →
    t.accounts.openT = a.pendingT ∧ t.accounts.closedT = a.openT ∧ t.accounts.pendingT = a.closedT ∧
    t.accounts.table t.accounts.closedT = a.table a.openT ∧
    t.accounts.table t.accounts.pendingT = List.replicate 49 Entry.blank ∧
    (∀ i, t.accounts.entry t.accounts.openT i =
      (let old := a.entry a.openT i
      let new := a.entry a.pendingT i
      let r := a.acc i
      match old.nomination, new.nomination with
      | some n, none =>
        if n ≠ 0 ∧ r.present = true ∧ r.code ≠ 0 then
          let m := max (-(r.wdRight : Int)) (min r.injRight n)
          { new with nomination := some m, curtailed := old.curtailed || decide (m ≠ n) }
        else new
      | _, _ => new)) ∧
    t.accounts = { a with
      p0 := t.accounts.p0, p1 := t.accounts.p1, p2 := t.accounts.p2
      openT := a.pendingT, closedT := a.openT, pendingT := a.closedT
      openSeq := seq, closedSeq := a.openSeq, reporting := true, cursor := some 0 } ∧
    (let cutBack := fun i =>
        let n := (a.entry a.openT i).nomination.getD 0
        let r := a.acc i
        decide (n ≠ 0 ∧ (a.entry a.pendingT i).nomination = none ∧ r.present = true ∧ r.code ≠ 0 ∧
          max (-(r.wdRight : Int)) (min r.injRight n) ≠ n)
     t.events = (postAll
        ((match a.cursor with
          | some i => [(.closeLost, ((List.range 49).filter
              (fun j => decide (i ≤ j) && qualifies (a.table a.closedT) j)).length)]
          | none => []) ++
          ((List.range 49).filter cutBack).map (fun i => (.nomCurtailed, (a.acc i).code)) ++
          [(.periodRotate, seq.toNat)]) s).events) ∧
    KeepsAllBut [.accounts, .events] s t)

/-- ACCOUNT_INCREMENT_TAKE and FUEL_INCREMENT_TAKE: each account's part is its nomination's share,
truncated, and the remainder is the holding account's; parts go to the totals and the OPEN entry's
columns, wet withdrawals to off-spec. A total outside 64 bits is the free value of log 11. -/
def Obligations.IncrementsAreSharedByNomination : Prop :=
  (∀ (v : Int) (rest : List Int) (s : Machine.State), s.active = true →
    s.accounts.metered = v :: rest → s.accounts.recs.length = 49 →
    s.accounts.openTable.length = 49 →
    let a := s.accounts
    let total := siteTarget a
    let share := fun i => if total = 0 then 0 else
      (v * ((a.entry a.openT i).nomination.getD 0)).tdiv total
    let others := ((List.range 48).map (fun i => share (i + 1))).sum
    let part := fun i => if i = 0 then v - others else share i
    let wet := decide (s.dryer.offSpec = true ∧ v < 0)
    ∃ t, exec .accountIncrementTake s = .next t ∧
      (∀ i, i < 49 →
        let dry := if wet = true ∧ part i < 0 then -(part i) else 0
        t.accounts.acc i = { a.acc i with
          net := accAdd (a.acc i).net (part i), offSpec := accAdd (a.acc i).offSpec dry } ∧
        t.accounts.entry a.openT i = { a.entry a.openT i with
          injected := accAdd (a.entry a.openT i).injected (if 0 < part i then part i else 0)
          withdrawn := accAdd (a.entry a.openT i).withdrawn (if part i < 0 then -(part i) else 0)
          offSpec := accAdd (a.entry a.openT i).offSpec dry }) ∧
      (∀ x, x ≠ a.openT → t.accounts.table x = a.table x) ∧
      t.accounts = { a.setTable a.openT (t.accounts.table a.openT) with
        recs := t.accounts.recs, metered := rest } ∧
      KeepsAllBut [.accounts] s t) ∧
  (∀ (f : Nat) (rest : List Nat) (s : Machine.State), s.active = true →
    s.accounts.fuel = f :: rest → s.accounts.recs.length = 49 →
    s.accounts.openTable.length = 49 →
    let a := s.accounts
    let positive := fun i => max 0 ((a.entry a.openT i).nomination.getD 0)
    let total := ((List.range 49).map positive).sum
    let share := fun i => if total = 0 then 0 else ((f : Int) * positive i).tdiv total
    let others := ((List.range 48).map (fun i => share (i + 1))).sum
    let part := fun i => if i = 0 then (f : Int) - others else share i
    ∃ t, exec .fuelIncrementTake s = .next t ∧
      (∀ i, i < 49 →
        t.accounts.acc i = { a.acc i with fuel := accAdd (a.acc i).fuel (part i) } ∧
        t.accounts.entry a.openT i = { a.entry a.openT i with
          fuel := accAdd (a.entry a.openT i).fuel (part i) }) ∧
      (∀ x, x ≠ a.openT → t.accounts.table x = a.table x) ∧
      t.accounts = { a.setTable a.openT (t.accounts.table a.openT) with
        recs := t.accounts.recs, fuel := rest } ∧
      KeepsAllBut [.accounts] s t)

/-- Not one litre goes astray: while no total leaves 64 bits, a metered increment raises the sum of net
allocated over all records by exactly itself, and a fuel increment the sum of fuel charged. -/
def Obligations.NoLitreGoesAstray : Prop :=
  (∀ (v : Int) (rest : List Int) (s t : Machine.State), s.active = true →
    s.accounts.metered = v :: rest → s.accounts.recs.length = 49 →
    s.accounts.openTable.length = 49 → exec .accountIncrementTake s = .next t →
    (∀ i, i < 49 → -(2 ^ 63) ≤ (s.accounts.acc i).net +
        (parts v (siteTarget s.accounts) s.accounts.openTable).getD i 0 ∧
      (s.accounts.acc i).net +
        (parts v (siteTarget s.accounts) s.accounts.openTable).getD i 0 < 2 ^ 63) →
    (t.accounts.recs.map (fun r => r.net)).sum = (s.accounts.recs.map (fun r => r.net)).sum + v) ∧
  (∀ (f : Nat) (rest : List Nat) (s t : Machine.State), s.active = true →
    s.accounts.fuel = f :: rest → s.accounts.recs.length = 49 →
    s.accounts.openTable.length = 49 → exec .fuelIncrementTake s = .next t →
    (∀ i, i < 49 → -(2 ^ 63) ≤ (s.accounts.acc i).fuel +
        (charges f (positiveSum s.accounts) s.accounts.openTable).getD i 0 ∧
      (s.accounts.acc i).fuel +
        (charges f (positiveSum s.accounts) s.accounts.openTable).getD i 0 < 2 ^ 63) →
    (t.accounts.recs.map (fun r => r.fuel)).sum = (s.accounts.recs.map (fun r => r.fuel)).sum + f)

/-! ### Queries -/

/-- The codes of R43 and the REPORT that answers each QUERY, found or not found, its fields in order; LINES gives line 1 in the
first bit of byte 2 and line 24 in the last of byte 4, each level by the line's mode. The offer is
admitted at a queue of 6 frames or fewer, else dropped with QUERY_DROPPED and its selector. An inventory
outside 64 bits is the free value of log 11. -/
def Obligations.QueriesAreAnsweredOrDropped : Prop :=
  ((∀ f : Machine.Flow, [DirState.idle, .lineupInj, .lineupWd, .inject, .withdraw, .tripped].map
      (fun st => dirCode st f) = [0, 1, 2, 3, 4, 7]) ∧
    dirCode .rundown .inj = 5 ∧ dirCode .rundown .wd = 6 ∧
    [Station.loading, .configFault, .listening, .running, .duplicate].map stationCode = [0, 1, 2, 3, 4] ∧
    [TowerState.onLine, .hold, .heating, .cooling, .standby, .faulted].map towerStateCode =
      [0, 1, 2, 3, 4, 5] ∧
    [PeerState.absent, .fresh, .stale].map peerStateCode = [0, 1, 2] ∧
    [QState.none, .good, .held, .failed].map qStateCode = [0, 1, 2, 3] ∧
    [TableRole.openRole, .pendingRole, .closedRole].map tableRoleCode = [1, 2, 3] ∧
    (∀ id q, qtyOf id = some q ↔
      (id, q) ∈ [(1, Qty.wellP), (2, .wellT), (3, .lineP), (4, .dewOut), (5, .regenT)])) ∧
  ∀ (f : RxFrame) (rest : List RxFrame) (s : Machine.State), s.active = true →
    takeFrame .queryResponder s.link.buffers = some (f, rest) →
    let offered := fun (selector : Nat) (report : List Byte) =>
      if s.link.queue.length ≤ 6 then
        { s with link := { s.link with
          buffers := rest
          queue := s.link.queue ++
            [{ kind := .report, payload := report, collisions := 0, backoff := false }] } }
      else post .queryDropped selector { s with link := { s.link with buffers := rest } }
    (∀ code, f.body = .query (.account code) →
      exec .queryAccount s = .next (offered 1
        (match lookup s.accounts code with
        | some i =>
          let r := s.accounts.acc i
          [1#8, 0#8] ++ putU 2 r.code ++ putS 6 (acc64 (r.opening + r.net)) ++ putS 6 r.net ++
            putU 4 r.fuel ++ putU 4 r.offSpec
        | none => [1#8, 0x80#8] ++ putU 2 code ++ List.replicate 20 0#8))) ∧
    (∀ role code, f.body = .query (.entry role code) →
      exec .queryEntry s = .next (offered 2
        (match lookup s.accounts code with
        | some i =>
          let e := s.accounts.entry (s.accounts.roleOf role) i
          [2#8, BitVec.ofNat 8 (tableRoleCode role + (if e.nomination.isSome then 4 else 0) +
            (if e.curtailed then 8 else 0))] ++ putU 2 code ++ putS 3 (e.nomination.getD 0) ++
            putU 4 e.injected ++ putU 4 e.withdrawn ++ putU 3 e.fuel ++ putU 4 e.offSpec
        | none => [2#8, BitVec.ofNat 8 (0x80 + tableRoleCode role)] ++ putU 2 code ++
            List.replicate 18 0#8))) ∧
    (∀ address, f.body = .query (.peer address) →
      exec .queryPeer s = .next (offered 3
        (if 1 ≤ address ∧ address ≤ 32 then
          [3#8, BitVec.ofNat 8 (peerStateCode (peerRec s.roster address).state)] ++ putU 1 address ++
            statusPayload (peerRec s.roster address).last
        else [3#8, 0x80#8] ++ putU 1 address ++ List.replicate 21 0#8))) ∧
    (∀ id, f.body = .query (.quantity id) →
      exec .queryQuantity s = .next (offered 4
        (match qtyOf id with
        | some q => [4#8, BitVec.ofNat 8 (qStateCode (s.qty q).state)] ++ putU 1 id ++
            putS 2 (s.qty q).value
        | none => [4#8, 0x80#8] ++ putU 1 id ++ [0#8, 0#8]))) ∧
    (f.body = .query .lines → ∃ b2 b3 b4 : Byte,
      exec .queryLines s = .next (offered 5 [5#8, 0#8, b2, b3, b4]) ∧
      ∀ (n : Nat) (c : LineCfg), 1 ≤ n → n ≤ 24 → lineCfg? s.cfg n = some c →
        ([b2, b3, b4].getD ((n - 1) / 8) 0#8).getLsbD (7 - (n - 1) % 8) =
          match c.mode with
          | .sense => (s.lines.lineRec n).debounced
          | .count => logical c.polarity (s.lines.lineRec n).pinHigh
          | .odDrive => requestOf s.lines.requests c.role
          | .ppDrive => requestOf s.lines.requests c.role
          | .pwm => decide (0 < s.lines.appliedDuty)) ∧
    (f.body = .query .station →
      exec .queryStation s = .next (offered 6
        ([6#8, BitVec.ofNat 8 (dirCode s.direction.state s.direction.remembered +
          16 * stationCode s.startup.station)] ++ putU 3 s.direction.r ++ putS 3 s.share.q ++
          putS 4 ((acc64 ((s.cfg.station.baseInventory : Int) * 1000 + s.meter.net)).tdiv 1000) ++
          putU 3 (s.compressor.u1.runSeconds / 3600 : Nat) ++
          putU 3 (s.compressor.u2.runSeconds / 3600 : Nat) ++
          [BitVec.ofNat 8 (16 * towerStateCode s.dryer.a.state + towerStateCode s.dryer.b.state)] ++
          putU 2 (s.dryer.a.load.tdiv 100000) ++ putU 2 (s.dryer.b.load.tdiv 100000))))

/-! ### What every step keeps -/

/-- Every step keeps the Link Controller's and the Event Queue's records sound. -/
def Obligations.StepsKeepQueuesWithinTheirPlaces : Prop :=
  ∀ s t : Machine.State, step s = .next t →
    (LinkSound s.link → LinkSound t.link) ∧ (EventsSound s.events → EventsSound t.events)

/-- Every step keeps the drive requests those of the towers', the units' and the direction states, with
one tower on line, one heater owner, and R and the duty 0 outside INJECT, WITHDRAW and a ramping
RUNDOWN. -/
def Obligations.StepsKeepRequestsWithTheirStates : Prop :=
  ∀ s t : Machine.State, step s = .next t →
    (DryerSound s.dryer s.lines.requests → DryerSound t.dryer t.lines.requests) ∧
    (UnitsSound s.compressor s.lines.requests → UnitsSound t.compressor t.lines.requests) ∧
    (DirectionSound s.direction s.lines.requests → DirectionSound t.direction t.lines.requests)

/-- Every step keeps the Account Store's record sound: among the rest, every nomination of the OPEN and
the PENDING table within its account's rights, each present shipper found by lookup of its code at its own
index, each index 1 to 48 present or on the free-index stack, never both, and at most one increment in each
increment list. -/
def Obligations.StepsKeepNominationsWithinRights : Prop :=
  ∀ s t : Machine.State, AccountsSound s.accounts → step s = .next t → AccountsSound t.accounts

/-- Outside LISTENING and RUNNING every step keeps every block at its reset values, but for what
`IdleAtReset` names: the configured run seconds, the tower records with the heater's owner and their
requests, the quantities' values, the receiver's place, the admission mark, the levels at the pins, the
start clock, and the Start-up Controller's record other than its timer. In LOADING and CONFIG_FAULT the
scanner, the link, the units, the towers and the requests are wholly at reset. -/
def Obligations.StepsKeepTheIdlePartAtReset : Prop :=
  ∀ s t : Machine.State, IdleAtReset s → step s = .next t → IdleAtReset t

/-- The state after reset is sound. -/
def Obligations.ResetIsSound : Prop :=
  Sound State.reset
end

