-- ==== Sys2Proof/Laws/Bytes.lean ====
section
/-! SUPPORT. Fields of a frame as numbers and back (R37): what is put as bytes, most significant first,
reads back as the number that was put; and what a receiver makes of a whole frame (R26, R27). -/

namespace Sys2Proof.Machine

@[simp] theorem bytesOf_length (k n : Nat) : (bytesOf k n).length = k := by
  induction k with
  | zero => rfl
  | succ k ih => simp [bytesOf, ih]

@[simp] theorem putU_length (k : Nat) (x : Int) : (putU k x).length = k := bytesOf_length _ _
@[simp] theorem putS_length (k : Nat) (x : Int) : (putS k x).length = k := bytesOf_length _ _
@[simp] theorem putWord_length (w : Word16) : (putWord w).length = 2 := bytesOf_length _ _

/-- Reading on from a number already read. -/
theorem beNat_foldl (bs : List Byte) (acc : Nat) :
    bs.foldl (fun a b => a * 256 + b.toNat) acc = acc * 256 ^ bs.length + beNat bs := by
  induction bs generalizing acc with
  | nil => simp [beNat]
  | cons b bs ih =>
    simp only [beNat, List.foldl_cons, List.length_cons, ih (acc * 256 + b.toNat), ih (0 * 256 + b.toNat)]
    rw [Nat.pow_succ]
    ring

theorem beNat_cons (b : Byte) (bs : List Byte) :
    beNat (b :: bs) = b.toNat * 256 ^ bs.length + beNat bs := by
  have h := beNat_foldl bs (0 * 256 + b.toNat)
  simpa [beNat] using h

/-- The lowest `k` bytes of a number, read back. -/
theorem beNat_bytesOf (k n : Nat) : beNat (bytesOf k n) = n % 256 ^ k := by
  induction k with
  | zero => simp [bytesOf, beNat, Nat.mod_one]
  | succ k ih =>
    have m : n % (256 ^ k * 256) = n % 256 ^ k + 256 ^ k * (n / 256 ^ k % 256) := Nat.mod_mul
    have p : 256 ^ (k + 1) = 256 ^ k * 256 := Nat.pow_succ 256 k
    have b : (BitVec.ofNat 8 (n / 256 ^ k)).toNat = n / 256 ^ k % 256 := BitVec.toNat_ofNat _ _
    rw [bytesOf, beNat_cons, ih, bytesOf_length, b, p, m, Nat.mul_comm]
    exact Nat.add_comm _ _

/-- An unsigned field that holds its value reads back as it. -/
theorem beNat_putU (k : Nat) (x : Int) (h0 : 0 ≤ x) (h1 : x < 2 ^ (8 * k)) :
    beNat (putU k x) = x.toNat := by
  have e : (256 : Nat) ^ k = 2 ^ (8 * k) := by rw [Nat.pow_mul]
  have s : satU (8 * k) x = x.toNat := by
    unfold satU
    rw [min_eq_right (by omega), max_eq_right h0]
  rw [putU, beNat_bytesOf, s, e, Nat.mod_eq_of_lt]
  have c : ((2 ^ (8 * k) : Nat) : Int) = (2 : Int) ^ (8 * k) := by norm_cast
  omega

/-- A signed field that holds its value reads back as it. -/
theorem beInt_putS (k : Nat) (x : Int) (hk : 0 < k) (h0 : -(2 ^ (8 * k - 1)) ≤ x)
    (h1 : x < 2 ^ (8 * k - 1)) : beInt (putS k x) = x := by
  have e : (256 : Nat) ^ k = 2 ^ (8 * k) := by rw [Nat.pow_mul]
  have c : ((2 ^ (8 * k) : Nat) : Int) = (2 : Int) ^ (8 * k) := by norm_cast
  have d : ((2 ^ (8 * k - 1) : Nat) : Int) = (2 : Int) ^ (8 * k - 1) := by norm_cast
  have p : (2 : Int) ^ (8 * k) = 2 * 2 ^ (8 * k - 1) := by
    rw [← pow_succ']
    congr 1
    omega
  have s : satS (8 * k) x = x := by
    unfold satS
    rw [min_eq_right (by omega), max_eq_right h0]
  have pos : (0 : Int) < 2 ^ (8 * k - 1) := by positivity
  have m := Int.emod_nonneg x (show (2 : Int) ^ (8 * k) ≠ 0 by omega)
  have l := Int.emod_lt_of_pos x (show (0 : Int) < 2 ^ (8 * k) by omega)
  unfold beInt toSigned
  rw [putS_length, putS, beNat_bytesOf, s, e, Nat.mod_eq_of_lt (by omega)]
  rcases Int.lt_or_le x 0 with hx | hx
  · have v : x % 2 ^ (8 * k) = x + 2 ^ (8 * k) := by
      rw [← Int.add_emod_right, Int.emod_eq_of_lt (by omega) (by omega)]
    rw [v] at m l ⊢
    split <;> omega
  · have v : x % 2 ^ (8 * k) = x := Int.emod_eq_of_lt hx (by omega)
    rw [v]
    split <;> omega

/-- A 16-bit word reads back as it was put. -/
theorem beWord_putWord (w : Word16) : beWord (putWord w) = w := by
  rw [beWord, putWord, beNat_bytesOf]
  apply BitVec.eq_of_toNat_eq
  simp [Nat.mod_eq_of_lt w.isLt]

/-! ### The bytes of a field as one number -/

theorem toNat_append_byte {n : Nat} (x : BitVec n) (b : Byte) :
    (x ++ b).toNat = x.toNat * 256 + b.toNat := by
  rw [BitVec.toNat_append, ← Nat.shiftLeft_add_eq_or_of_lt b.isLt, Nat.shiftLeft_eq]

theorem beNat_one (a : Byte) : beNat [a] = a.toNat := by simp [beNat]

theorem beNat_two (a b : Byte) : beNat [a, b] = (a ++ b).toNat := by
  simp [beNat, toNat_append_byte]

theorem beNat_three (a b c : Byte) : beNat [a, b, c] = (a ++ b ++ c).toNat := by
  simp only [beNat, toNat_append_byte, List.foldl]
  omega

theorem beWord_two (a b : Byte) : beWord [a, b] = a ++ b := by
  apply BitVec.eq_of_toNat_eq
  rw [beWord, beNat_two, BitVec.toNat_ofNat]
  exact Nat.mod_eq_of_lt (a ++ b).isLt

theorem beInt_three (a b c : Byte) : beInt [a, b, c] = (a ++ b ++ c).toInt := by
  rw [beInt, beNat_three, toSigned, BitVec.toInt_eq_toNat_cond]
  simp only [List.length_cons, List.length_nil]
  split <;> split <;> omega

theorem beInt_six (a b c d e f : Byte) :
    beInt [a, b, c, d, e, f] = (a ++ b ++ c ++ d ++ e ++ f).toInt := by
  have n : beNat [a, b, c, d, e, f] = (a ++ b ++ c ++ d ++ e ++ f).toNat := by
    simp only [beNat, toNat_append_byte, List.foldl]
    omega
  rw [beInt, n, toSigned, BitVec.toInt_eq_toNat_cond]
  simp only [List.length_cons, List.length_nil]
  split <;> split <;> omega

/-! ### A whole frame, received -/

theorem kindLength_bounds {kind n : Nat} (h : kindLength kind = some n) : kind ≤ 8 ∧ n ≤ 24 := by
  unfold kindLength at h
  split at h <;> cases h <;> decide

/-- A frame of a sender whose class admits its kind, with the kind's own length, is judged by its payload
alone (R26, R27). -/
theorem acceptFrame_frameBytes (img : Image) (kind sender : Nat) (p : List Byte) (h63 : sender ≤ 63)
    (hl : kindLength kind = some p.length) (hs : senderOk img kind sender = true) :
    acceptFrame img (frameBytes kind sender p) = (readBody kind p).map (fun b =>
      { sender := sender, dup := decide (kind = 7) && decide (sender = img.ownAddress), body := b }) := by
  obtain ⟨hk, h24⟩ := kindLength_bounds hl
  have e1 : headerKind (BitVec.ofNat 8 (kind * 16 + sender / 4)) = kind := by
    simp [headerKind]
    omega
  have e2 : headerSender (BitVec.ofNat 8 (kind * 16 + sender / 4))
      (BitVec.ofNat 8 (sender % 4 * 64 + p.length)) = sender := by
    simp [headerSender]
    omega
  have e3 : headerLen (BitVec.ofNat 8 (sender % 4 * 64 + p.length)) = p.length := by
    simp [headerLen]
    omega
  simp only [frameBytes, headerBytes, List.cons_append, List.nil_append, acceptFrame, e1, e2, e3,
    List.take_left']
  rw [if_pos]
  exact ⟨h24, by simp, by simp [List.getD_eq_getElem?_getD], hl, hs⟩

end Sys2Proof.Machine
end

