-- ==== Sys2Proof/Laws/Chains.lean ====
section
/-! SUPPORT. The bucket chains of the Account Store (R170, R171): what a chain is as a list of indices, what
lookup and the end of a chain give on it, and that creating, retiring and changing accounts keep
`ChainsSound`. -/

namespace Sys2Proof.Machine

/-- The record of an index of a list of records. -/
def recAt (recs : List AccRec) (i : Nat) : AccRec := recs.getD i AccRec.blank

/-- The chain from `h` is exactly the list of indices (R170). -/
def Linked (recs : List AccRec) : Option Nat → List Nat → Prop
  | h, [] => h = none
  | h, i :: l => h = some i ∧ Linked recs (recAt recs i).link l

/-! ### A chain as a list -/

theorem chainFrom_of_linked {recs : List AccRec} {l : List Nat} {h : Option Nat} {n : Nat}
    (hl : Linked recs h l) (hn : l.length < n) : chainFrom recs n h = l := by
  induction l generalizing h n with
  | nil =>
    cases hl
    cases n <;> rfl
  | cons i l ih =>
    obtain ⟨rfl, ht⟩ := hl
    cases n with
    | zero => simp at hn
    | succ n =>
      show i :: chainFrom recs n (recAt recs i).link = _
      rw [ih ht (by simpa using hn)]

theorem linked_chainFrom {recs : List AccRec} {n : Nat} {h : Option Nat}
    (hn : (chainFrom recs n h).length < n) : Linked recs h (chainFrom recs n h) := by
  induction n generalizing h with
  | zero => simp at hn
  | succ n ih =>
    cases h with
    | none => rfl
    | some i => exact ⟨rfl, ih (Nat.lt_of_succ_lt_succ hn)⟩

/-- Lookup on a chain gives its first record with the code (R170). -/
theorem walkChain_linked {recs : List AccRec} {l : List Nat} {h : Option Nat} {n : Nat} (code : Nat)
    (hl : Linked recs h l) (hn : l.length ≤ n) :
    walkChain recs code n h = l.find? (fun i => decide ((recAt recs i).code = code)) := by
  induction l generalizing h n with
  | nil =>
    cases hl
    cases n <;> rfl
  | cons i l ih =>
    obtain ⟨rfl, ht⟩ := hl
    cases n with
    | zero => simp at hn
    | succ n =>
      have h2 := ih ht (by simpa using hn)
      by_cases hc : (recAt recs i).code = code
      · rw [List.find?_cons_of_pos (by simpa using hc)]
        exact if_pos hc
      · rw [List.find?_cons_of_neg (by simpa using hc), ← h2]
        exact if_neg hc

/-- The last index of a chain that begins with `i`. -/
def lastOf : Nat → List Nat → Nat
  | i, [] => i
  | _, j :: l => lastOf j l

theorem lastOf_mem (i : Nat) (l : List Nat) : lastOf i l ∈ i :: l := by
  induction l generalizing i with
  | nil => exact List.mem_singleton.2 rfl
  | cons j l ih => exact List.mem_cons_of_mem _ (ih j)

/-- The end of a chain is its last index (R170). -/
theorem chainEnd_linked {recs : List AccRec} {l : List Nat} {i n : Nat}
    (hl : Linked recs (recAt recs i).link l) (hn : l.length ≤ n) :
    chainEnd recs n i = lastOf i l := by
  induction l generalizing i n with
  | nil =>
    cases n with
    | zero => rfl
    | succ n =>
      have h : (recs.getD i AccRec.blank).link = none := hl
      simp only [chainEnd, h]
      rfl
  | cons j l ih =>
    obtain ⟨hj, ht⟩ := hl
    cases n with
    | zero => simp at hn
    | succ n =>
      have h : (recs.getD i AccRec.blank).link = some j := hj
      simp only [chainEnd, h]
      exact ih ht (by simpa using hn)

/-- A chain depends on the links of its own records alone. -/
theorem Linked.congr {recs recs' : List AccRec} {l : List Nat} {h : Option Nat} (hl : Linked recs h l)
    (hr : ∀ i ∈ l, (recAt recs' i).link = (recAt recs i).link) : Linked recs' h l := by
  induction l generalizing h with
  | nil => exact hl
  | cons i l ih =>
    refine ⟨hl.1, ?_⟩
    rw [hr i (by simp)]
    exact ih hl.2 fun j hj => hr j (by simp [hj])

/-- The last record's link takes a new index: the index is the chain's new end. -/
theorem Linked.append {recs recs' : List AccRec} {l : List Nat} {i new : Nat}
    (hl : Linked recs (recAt recs i).link l) (hd : (i :: l).Nodup)
    (hr : ∀ j ∈ i :: l, j ≠ lastOf i l → (recAt recs' j).link = (recAt recs j).link)
    (hlast : (recAt recs' (lastOf i l)).link = some new) (hnew : (recAt recs' new).link = none) :
    Linked recs' (recAt recs' i).link (l ++ [new]) := by
  induction l generalizing i with
  | nil => exact ⟨hlast, hnew⟩
  | cons j l ih =>
    have hd' := List.nodup_cons.1 hd
    have hne : i ≠ lastOf j l := fun h => hd'.1 (h ▸ lastOf_mem j l)
    refine ⟨?_, ih hl.2 hd'.2 (fun k hk => hr k (List.mem_cons_of_mem _ hk)) hlast⟩
    rw [hr i (by simp) hne]
    exact hl.1

/-- A record unlinked: every link and the head that name it take its own link. -/
theorem Linked.unlink {recs recs' : List AccRec} {l : List Nat} {h : Option Nat} {i : Nat}
    (hl : Linked recs h l) (hd : l.Nodup)
    (hr : ∀ j ∈ l, j ≠ i → (recAt recs' j).link =
      if (recAt recs j).link = some i then (recAt recs i).link else (recAt recs j).link) :
    Linked recs' (if h = some i then (recAt recs i).link else h) (l.filter (fun j => decide (j ≠ i))) := by
  induction l generalizing h with
  | nil =>
    have hn : h = none := hl
    subst hn
    rfl
  | cons j l ih =>
    obtain ⟨rfl, ht⟩ := hl
    have hd' := List.nodup_cons.1 hd
    have h2 := ih ht hd'.2 fun k hk => hr k (List.mem_cons_of_mem _ hk)
    by_cases hj : j = i
    · subst hj
      have e : (recAt recs j).link ≠ some j := by
        intro hs
        cases l with
        | nil =>
          have hn : (recAt recs j).link = none := ht
          rw [hs] at hn
          cases hn
        | cons k l =>
          have hk := ht.1
          rw [hs] at hk
          injection hk with hk
          exact hd'.1 (by simp [hk])
      rw [if_neg e] at h2
      simpa using h2
    · have e : some j ≠ some i := by simpa using hj
      rw [if_neg e, List.filter_cons_of_pos (by simpa using hj)]
      exact ⟨rfl, by rw [hr j (by simp) hj]; exact h2⟩

/-! ### Sound chains -/

theorem length_le_of_indices {l : List Nat} (hd : l.Nodup) (hb : ∀ i ∈ l, 1 ≤ i ∧ i ≤ 48) :
    l.length ≤ 48 := by
  have h : l ⊆ (List.range 48).map (fun i => i + 1) := fun i hi => by
    have := hb i hi
    exact List.mem_map.2 ⟨i - 1, List.mem_range.2 (by omega), by omega⟩
  simpa using (List.subperm_of_subset hd h).length_le

/-- Each chain of a sound store is a list of at most 48 indices. -/
theorem ChainsSound.linked {a : Accounts} (h : ChainsSound a) {b : Nat} (hb : b < 16) :
    Linked a.recs (a.buckets.getD b none) (chainOf a b) ∧ (chainOf a b).length ≤ 48 := by
  have hc := h.2.2.1 b hb
  have hn := length_le_of_indices hc.1 fun i hi => ⟨(hc.2 i hi).1, (hc.2 i hi).2.1⟩
  exact ⟨linked_chainFrom (Nat.lt_succ_of_le hn), hn⟩

/-- In a sound store lookup of a code that is not 0 gives a present shipper's index. -/
theorem ChainsSound.lookup_some {a : Accounts} (h : ChainsSound a) {code i : Nat} (hc : code ≠ 0)
    (hl : lookup a code = some i) :
    1 ≤ i ∧ i ≤ 48 ∧ (a.acc i).present = true ∧ (a.acc i).code = code ∧ i ∈ chainOf a (code % 16) := by
  have hb : code % 16 < 16 := Nat.mod_lt _ (by decide)
  have k := h.linked hb
  have e : lookup a code =
      (chainOf a (code % 16)).find? (fun j => decide ((recAt a.recs j).code = code)) := by
    rw [← walkChain_linked code k.1 k.2]
    exact if_neg hc
  rw [hl] at e
  have hm := List.mem_of_find?_eq_some e.symm
  have hp := List.find?_some e.symm
  have q := (h.2.2.1 _ hb).2 i hm
  exact ⟨q.1, q.2.1, q.2.2.1, of_decide_eq_true hp, hm⟩

/-- In a sound store a code that lookup does not find is no present shipper's. -/
theorem ChainsSound.lookup_none {a : Accounts} (h : ChainsSound a) {code i : Nat}
    (hl : lookup a code = none) (hi : 1 ≤ i) (hj : i < 49) (hp : (a.acc i).present = true) :
    (a.acc i).code ≠ code := by
  intro hc
  have := (h.2.2.2 i hj hi hp).2
  rw [hc, hl] at this
  cases this

/-- In a sound store no two present shippers have one code. -/
theorem ChainsSound.code_inj {a : Accounts} (h : ChainsSound a) {i j : Nat} (hi : 1 ≤ i) (hi' : i < 49)
    (hp : (a.acc i).present = true) (hj : 1 ≤ j) (hj' : j < 49) (hq : (a.acc j).present = true)
    (hc : (a.acc j).code = (a.acc i).code) : j = i := by
  have e := (h.2.2.2 j hj' hj hq).2
  rw [hc, (h.2.2.2 i hi' hi hp).2] at e
  injection e with e
  exact e.symm

/-- Sound chains from a list for each bucket. -/
theorem chainsSound_of {a : Accounts} (chain : Nat → List Nat) (hlen : a.buckets.length = 16)
    (hs : ∀ i < 49, 1 ≤ i → ((a.acc i).present = true ↔ i ∉ a.stack))
    (hl : ∀ b < 16, Linked a.recs (a.buckets.getD b none) (chain b))
    (hd : ∀ b < 16, (chain b).Nodup)
    (hm : ∀ b < 16, ∀ i ∈ chain b, 1 ≤ i ∧ i ≤ 48 ∧ (a.acc i).present = true ∧ (a.acc i).code ≠ 0 ∧
      (a.acc i).code % 16 = b)
    (hp : ∀ i < 49, 1 ≤ i → (a.acc i).present = true → i ∈ chain ((a.acc i).code % 16))
    (hu : ∀ i < 49, 1 ≤ i → (a.acc i).present = true → ∀ j < 49, 1 ≤ j → (a.acc j).present = true →
      (a.acc j).code = (a.acc i).code → j = i) : ChainsSound a := by
  have hn : ∀ b < 16, (chain b).length ≤ 48 := fun b hb =>
    length_le_of_indices (hd b hb) fun i hi => ⟨(hm b hb i hi).1, (hm b hb i hi).2.1⟩
  have hc : ∀ b < 16, chainOf a b = chain b := fun b hb =>
    chainFrom_of_linked (hl b hb) (Nat.lt_succ_of_le (hn b hb))
  refine ⟨hlen, hs, fun b hb => ?_, fun i h49 h1 hpi => ?_⟩
  · rw [hc b hb]
    exact ⟨hd b hb, hm b hb⟩
  · have hb : (a.acc i).code % 16 < 16 := Nat.mod_lt _ (by decide)
    have hi := hp i h49 h1 hpi
    refine ⟨by rw [hc _ hb]; exact hi, ?_⟩
    have h0 : (a.acc i).code ≠ 0 := (hm _ hb i hi).2.2.2.1
    have e : lookup a (a.acc i).code =
        (chain ((a.acc i).code % 16)).find? (fun j => decide ((recAt a.recs j).code = (a.acc i).code)) := by
      rw [← walkChain_linked _ (hl _ hb) (hn _ hb)]
      exact if_neg h0
    rw [e]
    cases hf : (chain ((a.acc i).code % 16)).find?
        (fun j => decide ((recAt a.recs j).code = (a.acc i).code)) with
    | none =>
      have := List.find?_eq_none.1 hf i hi
      simp [recAt, Accounts.acc] at this
    | some j =>
      have hj := hm _ hb j (List.mem_of_find?_eq_some hf)
      have hq : (a.acc j).code = (a.acc i).code := by
        simpa [recAt, Accounts.acc] using List.find?_some hf
      rw [hu i h49 h1 hpi j (by omega) hj.1 hj.2.2.1 hq]

/-! ### What keeps them -/

/-- A store whose records agree in presence, code and link, with the same buckets and stack. -/
theorem ChainsSound.congr {a c : Accounts} (h : ChainsSound a)
    (hr : ∀ i < 49, (c.acc i).present = (a.acc i).present ∧ (c.acc i).code = (a.acc i).code ∧
      (c.acc i).link = (a.acc i).link)
    (hb : c.buckets = a.buckets) (hs : c.stack = a.stack) : ChainsSound c := by
  obtain ⟨h0, h1, h2, h3⟩ := id h
  refine chainsSound_of (chainOf a) (by rw [hb]; exact h0) ?_ ?_ (fun b k => (h2 b k).1) ?_ ?_ ?_
  · intro i k1 k2
    rw [(hr i k1).1, hs]
    exact h1 i k1 k2
  · intro b k
    rw [hb]
    exact (h.linked k).1.congr fun i hi => (hr i (by have := (h2 b k).2 i hi; omega)).2.2
  · intro b k i hi
    have q := (h2 b k).2 i hi
    have e := hr i (by omega)
    rw [e.1, e.2.1]
    exact q
  · intro i k1 k2 k3
    have e := hr i k1
    rw [e.1] at k3
    rw [e.2.1]
    exact (h3 i k1 k2 k3).1
  · intro i k1 k2 k3 j k4 k5 k6 k7
    rw [(hr i k1).1] at k3
    rw [(hr j k4).1] at k6
    rw [(hr i k1).2.1, (hr j k4).2.1] at k7
    exact h.code_inj k2 k1 k3 k5 k4 k6 k7

theorem recAt_set (recs : List AccRec) (i j : Nat) (r : AccRec) (hi : i < recs.length) :
    recAt (recs.set i r) j = if i = j then r else recAt recs j := by
  unfold recAt
  by_cases h : i = j
  · subst h
    simp [List.getD_eq_getElem?_getD, hi]
  · simp [List.getD_eq_getElem?_getD, h]

/-- A chain with a new index at its end, or begun with it (R170). -/
theorem appendChain_linked {recs : List AccRec} {buckets : List (Option Nat)} {l : List Nat} {code new : Nat}
    (a : Accounts) (hr : a.recs = recs) (hb : a.buckets = buckets)
    (hl : Linked recs (buckets.getD (bucketOf code) none) l) (hd : l.Nodup) (hn : l.length ≤ 48)
    (h49 : ∀ i ∈ l, i < recs.length) (hnew : (recAt recs new).link = none) (hout : new ∉ l)
    (hlen : buckets.length = 16) :
    let c := appendChain a code new
    Linked c.recs (c.buckets.getD (bucketOf code) none) (l ++ [new]) ∧
    (∀ b, b ≠ bucketOf code → c.buckets.getD b none = buckets.getD b none) ∧
    (∀ j, j ∉ l → recAt c.recs j = recAt recs j) ∧
    (∀ j, recAt c.recs j = { recAt recs j with link := (recAt c.recs j).link }) ∧
    c.buckets.length = 16 ∧ c.stack = a.stack := by
  subst hr hb
  have hk : bucketOf code < 16 := Nat.mod_lt _ (by decide)
  cases l with
  | nil =>
    have h0 : a.buckets.getD (bucketOf code) none = none := hl
    have e : appendChain a code new =
        { a with buckets := a.buckets.set (bucketOf code) (some new) } := by simp only [appendChain, h0]
    rw [e]
    refine ⟨⟨?_, hnew⟩, fun b hb => ?_, fun j _ => rfl, fun j => rfl, by simpa using hlen, rfl⟩
    · simp [List.getD_eq_getElem?_getD, hlen, hk]
    · simp [List.getD_eq_getElem?_getD, Ne.symm hb]
  | cons i l =>
    obtain ⟨hi, ht⟩ := hl
    have e : appendChain a code new = { a with
        recs := a.recs.set (lastOf i l) { a.acc (lastOf i l) with link := some new } } := by
      simp only [appendChain, hi, chainEnd_linked ht (Nat.le_of_succ_le hn)]
    rw [e]
    have hm := lastOf_mem i l
    have hset := fun j => recAt_set a.recs (lastOf i l) j
      { a.acc (lastOf i l) with link := some new } (h49 _ hm)
    have hne : lastOf i l ≠ new := fun h => hout (h ▸ hm)
    refine ⟨⟨hi, ht.append hd (fun j _ hj => ?_) ?_ ?_⟩, fun b _ => rfl, fun j hj => ?_, fun j => ?_, hlen,
      rfl⟩
    · rw [hset, if_neg (Ne.symm hj)]
    · rw [hset, if_pos rfl]
    · rw [hset, if_neg hne]
      exact hnew
    · have n : lastOf i l ≠ j := fun h => hj (h ▸ hm)
      rw [hset, if_neg n]
    · rw [hset]
      by_cases h : lastOf i l = j
      · subst h
        rw [if_pos rfl]
        rfl
      · rw [if_neg h]

/-- SETUP of a new code keeps them (R172). -/
theorem newAccount_chainsSound {a : Accounts} {i code injR wdR : Nat} {rest : List Nat}
    (h : ChainsSound a) (hlen : a.recs.length = 49) (hs : a.stack = i :: rest) (hd : a.stack.Nodup)
    (hb : ∀ j ∈ a.stack, 1 ≤ j ∧ j ≤ 48) (hc : code ≠ 0) (hl : lookup a code = none) :
    ChainsSound (newAccount i code injR wdR rest a) := by
  obtain ⟨h0, h1, h2, h3⟩ := id h
  have hi := hb i (by simp [hs])
  have hfree : ¬(a.acc i).present = true := fun hp => (h1 i (by omega) hi.1).1 hp (by simp [hs])
  have hout : ∀ b < 16, i ∉ chainOf a b := fun b k m => hfree ((h2 b k).2 i m).2.2.1
  have hk : bucketOf code < 16 := Nat.mod_lt _ (by decide)
  let made : AccRec := { AccRec.blank with present := true, code := code, injRight := injR, wdRight := wdR }
  let m : Accounts := { a with stack := rest, recs := a.recs.set i made }
  have hset : ∀ j, recAt m.recs j = if i = j then made else recAt a.recs j := fun j =>
    recAt_set a.recs i j made (by omega)
  have q := appendChain_linked (new := i) (code := code) m rfl rfl
    ((h.linked hk).1.congr fun j hj => by
      have n : i ≠ j := fun e => hout _ hk (e ▸ hj)
      rw [hset, if_neg n])
    (h2 _ hk).1 (h.linked hk).2
    (fun j hj => by
      have := (h2 _ hk).2 j hj
      simp only [m, List.length_set]
      omega)
    (by rw [hset, if_pos rfl]; rfl) (hout _ hk) h0
  obtain ⟨q1, q2, q3, q4, q5, q6⟩ := q
  have acc_eq : ∀ j, recAt (appendChain m code i).recs j =
      { (if i = j then made else recAt a.recs j) with
        link := (recAt (appendChain m code i).recs j).link } := fun j => by
    rw [← hset]
    exact q4 j
  have pres : ∀ j, ((appendChain m code i).acc j).present = if i = j then true else (a.acc j).present := by
    intro j
    show (recAt (appendChain m code i).recs j).present = _
    rw [acc_eq j]
    split <;> rfl
  have codes : ∀ j, ((appendChain m code i).acc j).code = if i = j then code else (a.acc j).code := by
    intro j
    show (recAt (appendChain m code i).recs j).code = _
    rw [acc_eq j]
    split <;> rfl
  refine chainsSound_of (a := appendChain m code i)
    (fun b => if b = bucketOf code then chainOf a b ++ [i] else chainOf a b) q5 ?_ ?_ ?_ ?_ ?_ ?_
  · intro j k1 k2
    rw [pres, q6]
    have k := h1 j k1 k2
    rw [hs] at k hd
    by_cases e : i = j
    · subst e
      simpa using (List.nodup_cons.1 hd).1
    · rw [if_neg e, k]
      simp [m, Ne.symm e]
  · intro b k
    by_cases e : b = bucketOf code
    · subst e
      rw [if_pos rfl]
      exact q1
    · rw [if_neg e, q2 b e]
      refine (h.linked k).1.congr fun j hj => ?_
      have n1 : i ≠ j := fun e' => hout b k (e' ▸ hj)
      have n2 : j ∉ chainOf a (bucketOf code) := fun hx =>
        e (((h2 b k).2 j hj).2.2.2.2.symm.trans ((h2 _ hk).2 j hx).2.2.2.2)
      rw [q3 j n2, hset, if_neg n1]
  · intro b k
    by_cases e : b = bucketOf code
    · rw [if_pos e, List.nodup_append]
      refine ⟨(h2 b k).1, by simp, fun x hx y hy => ?_⟩
      rw [List.mem_singleton.1 hy]
      exact fun e' => hout b k (e' ▸ hx)
    · rw [if_neg e]
      exact (h2 b k).1
  · intro b k j hj
    by_cases e : i = j
    · subst e
      rw [pres, codes, if_pos rfl, if_pos rfl]
      by_cases e2 : b = bucketOf code
      · exact ⟨hi.1, hi.2, rfl, hc, e2.symm⟩
      · rw [if_neg e2] at hj
        exact absurd hj (hout b k)
    · rw [pres, codes, if_neg e, if_neg e]
      refine (h2 b k).2 j ?_
      by_cases e2 : b = bucketOf code
      · rw [if_pos e2] at hj
        rcases List.mem_append.1 hj with hx | hx
        · exact hx
        · exact absurd (List.mem_singleton.1 hx).symm e
      · rwa [if_neg e2] at hj
  · intro j k1 k2 k3
    rw [pres] at k3
    rw [codes]
    by_cases e : i = j
    · subst e
      simp [bucketOf]
    · rw [if_neg e] at k3 ⊢
      have := (h3 j k1 k2 k3).1
      split
      · exact List.mem_append_left _ this
      · exact this
  · intro j k1 k2 k3 x k4 k5 k6 k7
    rw [pres] at k3 k6
    rw [codes, codes] at k7
    by_cases e : i = j <;> by_cases e' : i = x
    · omega
    · rw [if_pos e, if_neg e'] at k7
      rw [if_neg e'] at k6
      exact absurd k7 (h.lookup_none hl k5 k4 k6)
    · rw [if_pos e', if_neg e] at k7
      rw [if_neg e] at k3
      exact absurd k7.symm (h.lookup_none hl k2 k1 k3)
    · rw [if_neg e, if_neg e'] at k7
      rw [if_neg e] at k3
      rw [if_neg e'] at k6
      exact h.code_inj k2 k1 k3 k5 k4 k6 k7

/-- The store after a RETIRE: its records, buckets and stack (R175). -/
theorem retired_parts (i : Nat) (a : Accounts) (hi : i < a.recs.length) (h0 : 0 < i) :
    (∀ j, (retired i a).acc j =
      if j = i then AccRec.blank
      else if j = 0 then absorb (a.acc i) { a.acc 0 with
        link := if (a.acc 0).link = some i then (a.acc i).link else (a.acc 0).link }
      else { a.acc j with link := if (a.acc j).link = some i then (a.acc i).link else (a.acc j).link }) ∧
    (retired i a).buckets = a.buckets.map (fun h => if h = some i then (a.acc i).link else h) ∧
    (retired i a).stack = i :: a.stack := by
  have hmap : ∀ j, recAt (unlink a i).recs j =
      { recAt a.recs j with
        link := if (recAt a.recs j).link = some i then (recAt a.recs i).link else (recAt a.recs j).link } := by
    intro j
    simp only [recAt, unlink, Accounts.acc, List.getD_eq_getElem?_getD, List.getElem?_map]
    cases a.recs[j]? with
    | none => simp [AccRec.blank]
    | some r =>
      simp only [Option.map_some, Option.getD_some]
      split <;> rfl
  have hrecs : (retired i a).recs =
      ((unlink a i).recs.set i AccRec.blank).set 0 (absorb (a.acc i) ((unlink a i).acc 0)) := rfl
  refine ⟨fun j => ?_, rfl, rfl⟩
  show recAt (retired i a).recs j = _
  have hl : (unlink a i).recs.length = a.recs.length := by simp [unlink]
  rw [hrecs, recAt_set _ _ _ _ (by simp only [List.length_set]; omega), recAt_set _ _ _ _ (by omega)]
  by_cases e : j = i
  · subst e
    rw [if_neg (by omega), if_pos rfl, if_pos rfl]
  · rw [if_neg e]
    by_cases e0 : j = 0
    · subst e0
      rw [if_pos rfl, if_pos rfl]
      show absorb _ (recAt (unlink a i).recs 0) = _
      rw [hmap]
      rfl
    · rw [if_neg (Ne.symm e0), if_neg (Ne.symm e), if_neg e0, hmap]
      rfl

/-- RETIRE of a present shipper keeps them (R175). -/
theorem retired_chainsSound {a : Accounts} {i : Nat} (h : ChainsSound a) (hlen : a.recs.length = 49)
    (hi : 1 ≤ i ∧ i ≤ 48) (hp : (a.acc i).present = true) : ChainsSound (retired i a) := by
  obtain ⟨h0, h1, h2, h3⟩ := id h
  obtain ⟨q1, q2, q3⟩ := retired_parts i a (by omega) (by omega)
  have other : ∀ j, j ≠ i → 1 ≤ j → (retired i a).acc j = { a.acc j with
      link := if (a.acc j).link = some i then (a.acc i).link else (a.acc j).link } := fun j n k => by
    rw [q1 j, if_neg n, if_neg (by omega)]
  have self : (retired i a).acc i = AccRec.blank := by rw [q1 i, if_pos rfl]
  refine chainsSound_of (fun b => (chainOf a b).filter (fun j => decide (j ≠ i))) (by rw [q2]; simpa using h0)
    ?_ ?_ (fun b k => (h2 b k).1.filter _) ?_ ?_ ?_
  · intro j k1 k2
    rw [q3]
    by_cases e : j = i
    · subst e
      rw [self]
      simp [AccRec.blank]
    · rw [other j e k2]
      have := h1 j k1 k2
      simp only [this, List.mem_cons, e, false_or]
  · intro b k
    have hb : (retired i a).buckets.getD b none =
        if a.buckets.getD b none = some i then (recAt a.recs i).link else a.buckets.getD b none := by
      rw [q2]
      simp only [List.getD_eq_getElem?_getD, List.getElem?_map]
      cases a.buckets[b]? <;> simp [recAt, Accounts.acc]
    rw [hb]
    refine (h.linked k).1.unlink (h2 b k).1 fun j hj n => ?_
    have := congrArg AccRec.link (other j n ((h2 b k).2 j hj).1)
    exact this
  · intro b k j hj
    have hm := List.mem_filter.1 hj
    have n : j ≠ i := of_decide_eq_true hm.2
    have := (h2 b k).2 j hm.1
    rw [other j n this.1]
    exact this
  · intro j k1 k2 k3
    have n : j ≠ i := fun e => by
      rw [e, self] at k3
      cases k3
    rw [other j n k2] at k3 ⊢
    exact List.mem_filter.2 ⟨(h3 j k1 k2 k3).1, decide_eq_true n⟩
  · intro j k1 k2 k3 x k4 k5 k6 k7
    have n : j ≠ i := fun e => by
      rw [e, self] at k3
      cases k3
    have n' : x ≠ i := fun e => by
      rw [e, self] at k6
      cases k6
    rw [other j n k2] at k3 k7
    rw [other x n' k5] at k6 k7
    exact h.code_inj k2 k1 k3 k5 k4 k6 k7

/-- Parts taken record by record change no record's presence, code or link (R188, R190). -/
theorem recAt_zipWith {f : Int → AccRec → AccRec} {ps : List Int} {recs : List AccRec}
    (hf : ∀ x r, (f x r).present = r.present ∧ (f x r).code = r.code ∧ (f x r).link = r.link)
    (hl : recs.length ≤ ps.length) (i : Nat) :
    (recAt (List.zipWith f ps recs) i).present = (recAt recs i).present ∧
    (recAt (List.zipWith f ps recs) i).code = (recAt recs i).code ∧
    (recAt (List.zipWith f ps recs) i).link = (recAt recs i).link := by
  simp only [recAt, List.getD_eq_getElem?_getD, List.getElem?_zipWith]
  by_cases h : i < recs.length
  · rw [List.getElem?_eq_getElem h, List.getElem?_eq_getElem (by omega)]
    exact hf _ _
  · have e : recs[i]? = none := List.getElem?_eq_none (Nat.le_of_not_lt h)
    rw [e]
    cases ps[i]? <;> simp

@[simp] theorem parts_length (v t : Int) (es : List Entry) : (parts v t es).length = es.length := by
  cases es <;> simp [parts]

@[simp] theorem charges_length (f t : Int) (es : List Entry) : (charges f t es).length = es.length := by
  cases es <;> simp [charges]

/-- ACCOUNT_INCREMENT_TAKE keeps them (R188). -/
theorem allocated_chainsSound {a : Accounts} {v : Int} {offSpec : Bool} (h : ChainsSound a)
    (hlen : a.recs.length = 49) (ht : a.openTable.length = 49) : ChainsSound (allocated v offSpec a) :=
  h.congr
    (fun i _ => recAt_zipWith (f := creditRec (offSpec && decide (v < 0)))
      (ps := parts v (siteTarget a) a.openTable) (recs := a.recs) (fun _ _ => ⟨rfl, rfl, rfl⟩)
      (by simp [hlen, ht]) i)
    (by unfold allocated Accounts.setTable; cases a.openT <;> rfl)
    (by unfold allocated Accounts.setTable; cases a.openT <;> rfl)

/-- FUEL_INCREMENT_TAKE keeps them (R190). -/
theorem charged_chainsSound {a : Accounts} {f : Nat} (h : ChainsSound a)
    (hlen : a.recs.length = 49) (ht : a.openTable.length = 49) : ChainsSound (charged f a) :=
  h.congr
    (fun i _ => recAt_zipWith (f := fun c r => { r with fuel := accAdd r.fuel c })
      (ps := charges f (positiveSum a) a.openTable) (recs := a.recs) (fun _ _ => ⟨rfl, rfl, rfl⟩)
      (by simp [hlen, ht]) i)
    (by unfold charged Accounts.setTable; cases a.openT <;> rfl)
    (by unfold charged Accounts.setTable; cases a.openT <;> rfl)

end Sys2Proof.Machine
end

