-- ==== Sys2Proof/Laws/State.lean ====
section
/-! SUPPORT. One lemma for each field of State under each replacement of a block, true by `rfl`, so that
no proof unfolds a record update. -/

namespace Sys2Proof.Machine

/-! ### withStartup -/

@[simp] theorem State.withStartup_startup (s : State) (x : StartUp) : (s.withStartup x).startup = x := rfl
@[simp] theorem State.withStartup_lines (s : State) (x : StartUp) : (s.withStartup x).lines = s.lines := rfl
@[simp] theorem State.withStartup_scanner (s : State) (x : StartUp) : (s.withStartup x).scanner = s.scanner := rfl
@[simp] theorem State.withStartup_link (s : State) (x : StartUp) : (s.withStartup x).link = s.link := rfl
@[simp] theorem State.withStartup_roster (s : State) (x : StartUp) : (s.withStartup x).roster = s.roster := rfl
@[simp] theorem State.withStartup_meter (s : State) (x : StartUp) : (s.withStartup x).meter = s.meter := rfl
@[simp] theorem State.withStartup_compressor (s : State) (x : StartUp) : (s.withStartup x).compressor = s.compressor := rfl
@[simp] theorem State.withStartup_dryer (s : State) (x : StartUp) : (s.withStartup x).dryer = s.dryer := rfl
@[simp] theorem State.withStartup_share (s : State) (x : StartUp) : (s.withStartup x).share = s.share := rfl
@[simp] theorem State.withStartup_direction (s : State) (x : StartUp) : (s.withStartup x).direction = s.direction := rfl
@[simp] theorem State.withStartup_accounts (s : State) (x : StartUp) : (s.withStartup x).accounts = s.accounts := rfl
@[simp] theorem State.withStartup_events (s : State) (x : StartUp) : (s.withStartup x).events = s.events := rfl
@[simp] theorem State.withStartup_inbox (s : State) (x : StartUp) : (s.withStartup x).inbox = s.inbox := rfl
@[simp] theorem State.withStartup_pending (s : State) (x : StartUp) : (s.withStartup x).pending = s.pending := rfl

/-! ### withLines -/

@[simp] theorem State.withLines_startup (s : State) (x : FieldLines) : (s.withLines x).startup = s.startup := rfl
@[simp] theorem State.withLines_lines (s : State) (x : FieldLines) : (s.withLines x).lines = x := rfl
@[simp] theorem State.withLines_scanner (s : State) (x : FieldLines) : (s.withLines x).scanner = s.scanner := rfl
@[simp] theorem State.withLines_link (s : State) (x : FieldLines) : (s.withLines x).link = s.link := rfl
@[simp] theorem State.withLines_roster (s : State) (x : FieldLines) : (s.withLines x).roster = s.roster := rfl
@[simp] theorem State.withLines_meter (s : State) (x : FieldLines) : (s.withLines x).meter = s.meter := rfl
@[simp] theorem State.withLines_compressor (s : State) (x : FieldLines) : (s.withLines x).compressor = s.compressor := rfl
@[simp] theorem State.withLines_dryer (s : State) (x : FieldLines) : (s.withLines x).dryer = s.dryer := rfl
@[simp] theorem State.withLines_share (s : State) (x : FieldLines) : (s.withLines x).share = s.share := rfl
@[simp] theorem State.withLines_direction (s : State) (x : FieldLines) : (s.withLines x).direction = s.direction := rfl
@[simp] theorem State.withLines_accounts (s : State) (x : FieldLines) : (s.withLines x).accounts = s.accounts := rfl
@[simp] theorem State.withLines_events (s : State) (x : FieldLines) : (s.withLines x).events = s.events := rfl
@[simp] theorem State.withLines_inbox (s : State) (x : FieldLines) : (s.withLines x).inbox = s.inbox := rfl
@[simp] theorem State.withLines_pending (s : State) (x : FieldLines) : (s.withLines x).pending = s.pending := rfl
@[simp] theorem State.withLines_active (s : State) (x : FieldLines) : (s.withLines x).active = s.active := rfl
@[simp] theorem State.withLines_cfg (s : State) (x : FieldLines) : (s.withLines x).cfg = s.cfg := rfl

/-! ### withScanner -/

@[simp] theorem State.withScanner_startup (s : State) (x : Scanner) : (s.withScanner x).startup = s.startup := rfl
@[simp] theorem State.withScanner_lines (s : State) (x : Scanner) : (s.withScanner x).lines = s.lines := rfl
@[simp] theorem State.withScanner_scanner (s : State) (x : Scanner) : (s.withScanner x).scanner = x := rfl
@[simp] theorem State.withScanner_link (s : State) (x : Scanner) : (s.withScanner x).link = s.link := rfl
@[simp] theorem State.withScanner_roster (s : State) (x : Scanner) : (s.withScanner x).roster = s.roster := rfl
@[simp] theorem State.withScanner_meter (s : State) (x : Scanner) : (s.withScanner x).meter = s.meter := rfl
@[simp] theorem State.withScanner_compressor (s : State) (x : Scanner) : (s.withScanner x).compressor = s.compressor := rfl
@[simp] theorem State.withScanner_dryer (s : State) (x : Scanner) : (s.withScanner x).dryer = s.dryer := rfl
@[simp] theorem State.withScanner_share (s : State) (x : Scanner) : (s.withScanner x).share = s.share := rfl
@[simp] theorem State.withScanner_direction (s : State) (x : Scanner) : (s.withScanner x).direction = s.direction := rfl
@[simp] theorem State.withScanner_accounts (s : State) (x : Scanner) : (s.withScanner x).accounts = s.accounts := rfl
@[simp] theorem State.withScanner_events (s : State) (x : Scanner) : (s.withScanner x).events = s.events := rfl
@[simp] theorem State.withScanner_inbox (s : State) (x : Scanner) : (s.withScanner x).inbox = s.inbox := rfl
@[simp] theorem State.withScanner_pending (s : State) (x : Scanner) : (s.withScanner x).pending = s.pending := rfl
@[simp] theorem State.withScanner_active (s : State) (x : Scanner) : (s.withScanner x).active = s.active := rfl
@[simp] theorem State.withScanner_cfg (s : State) (x : Scanner) : (s.withScanner x).cfg = s.cfg := rfl

/-! ### withLink -/

@[simp] theorem State.withLink_startup (s : State) (x : Link) : (s.withLink x).startup = s.startup := rfl
@[simp] theorem State.withLink_lines (s : State) (x : Link) : (s.withLink x).lines = s.lines := rfl
@[simp] theorem State.withLink_scanner (s : State) (x : Link) : (s.withLink x).scanner = s.scanner := rfl
@[simp] theorem State.withLink_link (s : State) (x : Link) : (s.withLink x).link = x := rfl
@[simp] theorem State.withLink_roster (s : State) (x : Link) : (s.withLink x).roster = s.roster := rfl
@[simp] theorem State.withLink_meter (s : State) (x : Link) : (s.withLink x).meter = s.meter := rfl
@[simp] theorem State.withLink_compressor (s : State) (x : Link) : (s.withLink x).compressor = s.compressor := rfl
@[simp] theorem State.withLink_dryer (s : State) (x : Link) : (s.withLink x).dryer = s.dryer := rfl
@[simp] theorem State.withLink_share (s : State) (x : Link) : (s.withLink x).share = s.share := rfl
@[simp] theorem State.withLink_direction (s : State) (x : Link) : (s.withLink x).direction = s.direction := rfl
@[simp] theorem State.withLink_accounts (s : State) (x : Link) : (s.withLink x).accounts = s.accounts := rfl
@[simp] theorem State.withLink_events (s : State) (x : Link) : (s.withLink x).events = s.events := rfl
@[simp] theorem State.withLink_inbox (s : State) (x : Link) : (s.withLink x).inbox = s.inbox := rfl
@[simp] theorem State.withLink_pending (s : State) (x : Link) : (s.withLink x).pending = s.pending := rfl
@[simp] theorem State.withLink_active (s : State) (x : Link) : (s.withLink x).active = s.active := rfl
@[simp] theorem State.withLink_cfg (s : State) (x : Link) : (s.withLink x).cfg = s.cfg := rfl

/-! ### withRoster -/

@[simp] theorem State.withRoster_startup (s : State) (x : List PeerRec) : (s.withRoster x).startup = s.startup := rfl
@[simp] theorem State.withRoster_lines (s : State) (x : List PeerRec) : (s.withRoster x).lines = s.lines := rfl
@[simp] theorem State.withRoster_scanner (s : State) (x : List PeerRec) : (s.withRoster x).scanner = s.scanner := rfl
@[simp] theorem State.withRoster_link (s : State) (x : List PeerRec) : (s.withRoster x).link = s.link := rfl
@[simp] theorem State.withRoster_roster (s : State) (x : List PeerRec) : (s.withRoster x).roster = x := rfl
@[simp] theorem State.withRoster_meter (s : State) (x : List PeerRec) : (s.withRoster x).meter = s.meter := rfl
@[simp] theorem State.withRoster_compressor (s : State) (x : List PeerRec) : (s.withRoster x).compressor = s.compressor := rfl
@[simp] theorem State.withRoster_dryer (s : State) (x : List PeerRec) : (s.withRoster x).dryer = s.dryer := rfl
@[simp] theorem State.withRoster_share (s : State) (x : List PeerRec) : (s.withRoster x).share = s.share := rfl
@[simp] theorem State.withRoster_direction (s : State) (x : List PeerRec) : (s.withRoster x).direction = s.direction := rfl
@[simp] theorem State.withRoster_accounts (s : State) (x : List PeerRec) : (s.withRoster x).accounts = s.accounts := rfl
@[simp] theorem State.withRoster_events (s : State) (x : List PeerRec) : (s.withRoster x).events = s.events := rfl
@[simp] theorem State.withRoster_inbox (s : State) (x : List PeerRec) : (s.withRoster x).inbox = s.inbox := rfl
@[simp] theorem State.withRoster_pending (s : State) (x : List PeerRec) : (s.withRoster x).pending = s.pending := rfl
@[simp] theorem State.withRoster_active (s : State) (x : List PeerRec) : (s.withRoster x).active = s.active := rfl
@[simp] theorem State.withRoster_cfg (s : State) (x : List PeerRec) : (s.withRoster x).cfg = s.cfg := rfl

/-! ### withMeter -/

@[simp] theorem State.withMeter_startup (s : State) (x : Meter) : (s.withMeter x).startup = s.startup := rfl
@[simp] theorem State.withMeter_lines (s : State) (x : Meter) : (s.withMeter x).lines = s.lines := rfl
@[simp] theorem State.withMeter_scanner (s : State) (x : Meter) : (s.withMeter x).scanner = s.scanner := rfl
@[simp] theorem State.withMeter_link (s : State) (x : Meter) : (s.withMeter x).link = s.link := rfl
@[simp] theorem State.withMeter_roster (s : State) (x : Meter) : (s.withMeter x).roster = s.roster := rfl
@[simp] theorem State.withMeter_meter (s : State) (x : Meter) : (s.withMeter x).meter = x := rfl
@[simp] theorem State.withMeter_compressor (s : State) (x : Meter) : (s.withMeter x).compressor = s.compressor := rfl
@[simp] theorem State.withMeter_dryer (s : State) (x : Meter) : (s.withMeter x).dryer = s.dryer := rfl
@[simp] theorem State.withMeter_share (s : State) (x : Meter) : (s.withMeter x).share = s.share := rfl
@[simp] theorem State.withMeter_direction (s : State) (x : Meter) : (s.withMeter x).direction = s.direction := rfl
@[simp] theorem State.withMeter_accounts (s : State) (x : Meter) : (s.withMeter x).accounts = s.accounts := rfl
@[simp] theorem State.withMeter_events (s : State) (x : Meter) : (s.withMeter x).events = s.events := rfl
@[simp] theorem State.withMeter_inbox (s : State) (x : Meter) : (s.withMeter x).inbox = s.inbox := rfl
@[simp] theorem State.withMeter_pending (s : State) (x : Meter) : (s.withMeter x).pending = s.pending := rfl
@[simp] theorem State.withMeter_active (s : State) (x : Meter) : (s.withMeter x).active = s.active := rfl
@[simp] theorem State.withMeter_cfg (s : State) (x : Meter) : (s.withMeter x).cfg = s.cfg := rfl

/-! ### withCompressor -/

@[simp] theorem State.withCompressor_startup (s : State) (x : Compressor) : (s.withCompressor x).startup = s.startup := rfl
@[simp] theorem State.withCompressor_lines (s : State) (x : Compressor) : (s.withCompressor x).lines = s.lines := rfl
@[simp] theorem State.withCompressor_scanner (s : State) (x : Compressor) : (s.withCompressor x).scanner = s.scanner := rfl
@[simp] theorem State.withCompressor_link (s : State) (x : Compressor) : (s.withCompressor x).link = s.link := rfl
@[simp] theorem State.withCompressor_roster (s : State) (x : Compressor) : (s.withCompressor x).roster = s.roster := rfl
@[simp] theorem State.withCompressor_meter (s : State) (x : Compressor) : (s.withCompressor x).meter = s.meter := rfl
@[simp] theorem State.withCompressor_compressor (s : State) (x : Compressor) : (s.withCompressor x).compressor = x := rfl
@[simp] theorem State.withCompressor_dryer (s : State) (x : Compressor) : (s.withCompressor x).dryer = s.dryer := rfl
@[simp] theorem State.withCompressor_share (s : State) (x : Compressor) : (s.withCompressor x).share = s.share := rfl
@[simp] theorem State.withCompressor_direction (s : State) (x : Compressor) : (s.withCompressor x).direction = s.direction := rfl
@[simp] theorem State.withCompressor_accounts (s : State) (x : Compressor) : (s.withCompressor x).accounts = s.accounts := rfl
@[simp] theorem State.withCompressor_events (s : State) (x : Compressor) : (s.withCompressor x).events = s.events := rfl
@[simp] theorem State.withCompressor_inbox (s : State) (x : Compressor) : (s.withCompressor x).inbox = s.inbox := rfl
@[simp] theorem State.withCompressor_pending (s : State) (x : Compressor) : (s.withCompressor x).pending = s.pending := rfl
@[simp] theorem State.withCompressor_active (s : State) (x : Compressor) : (s.withCompressor x).active = s.active := rfl
@[simp] theorem State.withCompressor_cfg (s : State) (x : Compressor) : (s.withCompressor x).cfg = s.cfg := rfl

/-! ### withDryer -/

@[simp] theorem State.withDryer_startup (s : State) (x : Dryer) : (s.withDryer x).startup = s.startup := rfl
@[simp] theorem State.withDryer_lines (s : State) (x : Dryer) : (s.withDryer x).lines = s.lines := rfl
@[simp] theorem State.withDryer_scanner (s : State) (x : Dryer) : (s.withDryer x).scanner = s.scanner := rfl
@[simp] theorem State.withDryer_link (s : State) (x : Dryer) : (s.withDryer x).link = s.link := rfl
@[simp] theorem State.withDryer_roster (s : State) (x : Dryer) : (s.withDryer x).roster = s.roster := rfl
@[simp] theorem State.withDryer_meter (s : State) (x : Dryer) : (s.withDryer x).meter = s.meter := rfl
@[simp] theorem State.withDryer_compressor (s : State) (x : Dryer) : (s.withDryer x).compressor = s.compressor := rfl
@[simp] theorem State.withDryer_dryer (s : State) (x : Dryer) : (s.withDryer x).dryer = x := rfl
@[simp] theorem State.withDryer_share (s : State) (x : Dryer) : (s.withDryer x).share = s.share := rfl
@[simp] theorem State.withDryer_direction (s : State) (x : Dryer) : (s.withDryer x).direction = s.direction := rfl
@[simp] theorem State.withDryer_accounts (s : State) (x : Dryer) : (s.withDryer x).accounts = s.accounts := rfl
@[simp] theorem State.withDryer_events (s : State) (x : Dryer) : (s.withDryer x).events = s.events := rfl
@[simp] theorem State.withDryer_inbox (s : State) (x : Dryer) : (s.withDryer x).inbox = s.inbox := rfl
@[simp] theorem State.withDryer_pending (s : State) (x : Dryer) : (s.withDryer x).pending = s.pending := rfl
@[simp] theorem State.withDryer_active (s : State) (x : Dryer) : (s.withDryer x).active = s.active := rfl
@[simp] theorem State.withDryer_cfg (s : State) (x : Dryer) : (s.withDryer x).cfg = s.cfg := rfl

/-! ### withShare -/

@[simp] theorem State.withShare_startup (s : State) (x : Share) : (s.withShare x).startup = s.startup := rfl
@[simp] theorem State.withShare_lines (s : State) (x : Share) : (s.withShare x).lines = s.lines := rfl
@[simp] theorem State.withShare_scanner (s : State) (x : Share) : (s.withShare x).scanner = s.scanner := rfl
@[simp] theorem State.withShare_link (s : State) (x : Share) : (s.withShare x).link = s.link := rfl
@[simp] theorem State.withShare_roster (s : State) (x : Share) : (s.withShare x).roster = s.roster := rfl
@[simp] theorem State.withShare_meter (s : State) (x : Share) : (s.withShare x).meter = s.meter := rfl
@[simp] theorem State.withShare_compressor (s : State) (x : Share) : (s.withShare x).compressor = s.compressor := rfl
@[simp] theorem State.withShare_dryer (s : State) (x : Share) : (s.withShare x).dryer = s.dryer := rfl
@[simp] theorem State.withShare_share (s : State) (x : Share) : (s.withShare x).share = x := rfl
@[simp] theorem State.withShare_direction (s : State) (x : Share) : (s.withShare x).direction = s.direction := rfl
@[simp] theorem State.withShare_accounts (s : State) (x : Share) : (s.withShare x).accounts = s.accounts := rfl
@[simp] theorem State.withShare_events (s : State) (x : Share) : (s.withShare x).events = s.events := rfl
@[simp] theorem State.withShare_inbox (s : State) (x : Share) : (s.withShare x).inbox = s.inbox := rfl
@[simp] theorem State.withShare_pending (s : State) (x : Share) : (s.withShare x).pending = s.pending := rfl
@[simp] theorem State.withShare_active (s : State) (x : Share) : (s.withShare x).active = s.active := rfl
@[simp] theorem State.withShare_cfg (s : State) (x : Share) : (s.withShare x).cfg = s.cfg := rfl

/-! ### withDirection -/

@[simp] theorem State.withDirection_startup (s : State) (x : Direction) : (s.withDirection x).startup = s.startup := rfl
@[simp] theorem State.withDirection_lines (s : State) (x : Direction) : (s.withDirection x).lines = s.lines := rfl
@[simp] theorem State.withDirection_scanner (s : State) (x : Direction) : (s.withDirection x).scanner = s.scanner := rfl
@[simp] theorem State.withDirection_link (s : State) (x : Direction) : (s.withDirection x).link = s.link := rfl
@[simp] theorem State.withDirection_roster (s : State) (x : Direction) : (s.withDirection x).roster = s.roster := rfl
@[simp] theorem State.withDirection_meter (s : State) (x : Direction) : (s.withDirection x).meter = s.meter := rfl
@[simp] theorem State.withDirection_compressor (s : State) (x : Direction) : (s.withDirection x).compressor = s.compressor := rfl
@[simp] theorem State.withDirection_dryer (s : State) (x : Direction) : (s.withDirection x).dryer = s.dryer := rfl
@[simp] theorem State.withDirection_share (s : State) (x : Direction) : (s.withDirection x).share = s.share := rfl
@[simp] theorem State.withDirection_direction (s : State) (x : Direction) : (s.withDirection x).direction = x := rfl
@[simp] theorem State.withDirection_accounts (s : State) (x : Direction) : (s.withDirection x).accounts = s.accounts := rfl
@[simp] theorem State.withDirection_events (s : State) (x : Direction) : (s.withDirection x).events = s.events := rfl
@[simp] theorem State.withDirection_inbox (s : State) (x : Direction) : (s.withDirection x).inbox = s.inbox := rfl
@[simp] theorem State.withDirection_pending (s : State) (x : Direction) : (s.withDirection x).pending = s.pending := rfl
@[simp] theorem State.withDirection_active (s : State) (x : Direction) : (s.withDirection x).active = s.active := rfl
@[simp] theorem State.withDirection_cfg (s : State) (x : Direction) : (s.withDirection x).cfg = s.cfg := rfl

/-! ### withAccounts -/

@[simp] theorem State.withAccounts_startup (s : State) (x : Accounts) : (s.withAccounts x).startup = s.startup := rfl
@[simp] theorem State.withAccounts_lines (s : State) (x : Accounts) : (s.withAccounts x).lines = s.lines := rfl
@[simp] theorem State.withAccounts_scanner (s : State) (x : Accounts) : (s.withAccounts x).scanner = s.scanner := rfl
@[simp] theorem State.withAccounts_link (s : State) (x : Accounts) : (s.withAccounts x).link = s.link := rfl
@[simp] theorem State.withAccounts_roster (s : State) (x : Accounts) : (s.withAccounts x).roster = s.roster := rfl
@[simp] theorem State.withAccounts_meter (s : State) (x : Accounts) : (s.withAccounts x).meter = s.meter := rfl
@[simp] theorem State.withAccounts_compressor (s : State) (x : Accounts) : (s.withAccounts x).compressor = s.compressor := rfl
@[simp] theorem State.withAccounts_dryer (s : State) (x : Accounts) : (s.withAccounts x).dryer = s.dryer := rfl
@[simp] theorem State.withAccounts_share (s : State) (x : Accounts) : (s.withAccounts x).share = s.share := rfl
@[simp] theorem State.withAccounts_direction (s : State) (x : Accounts) : (s.withAccounts x).direction = s.direction := rfl
@[simp] theorem State.withAccounts_accounts (s : State) (x : Accounts) : (s.withAccounts x).accounts = x := rfl
@[simp] theorem State.withAccounts_events (s : State) (x : Accounts) : (s.withAccounts x).events = s.events := rfl
@[simp] theorem State.withAccounts_inbox (s : State) (x : Accounts) : (s.withAccounts x).inbox = s.inbox := rfl
@[simp] theorem State.withAccounts_pending (s : State) (x : Accounts) : (s.withAccounts x).pending = s.pending := rfl
@[simp] theorem State.withAccounts_active (s : State) (x : Accounts) : (s.withAccounts x).active = s.active := rfl
@[simp] theorem State.withAccounts_cfg (s : State) (x : Accounts) : (s.withAccounts x).cfg = s.cfg := rfl

/-! ### withEvents -/

@[simp] theorem State.withEvents_startup (s : State) (x : Events) : (s.withEvents x).startup = s.startup := rfl
@[simp] theorem State.withEvents_lines (s : State) (x : Events) : (s.withEvents x).lines = s.lines := rfl
@[simp] theorem State.withEvents_scanner (s : State) (x : Events) : (s.withEvents x).scanner = s.scanner := rfl
@[simp] theorem State.withEvents_link (s : State) (x : Events) : (s.withEvents x).link = s.link := rfl
@[simp] theorem State.withEvents_roster (s : State) (x : Events) : (s.withEvents x).roster = s.roster := rfl
@[simp] theorem State.withEvents_meter (s : State) (x : Events) : (s.withEvents x).meter = s.meter := rfl
@[simp] theorem State.withEvents_compressor (s : State) (x : Events) : (s.withEvents x).compressor = s.compressor := rfl
@[simp] theorem State.withEvents_dryer (s : State) (x : Events) : (s.withEvents x).dryer = s.dryer := rfl
@[simp] theorem State.withEvents_share (s : State) (x : Events) : (s.withEvents x).share = s.share := rfl
@[simp] theorem State.withEvents_direction (s : State) (x : Events) : (s.withEvents x).direction = s.direction := rfl
@[simp] theorem State.withEvents_accounts (s : State) (x : Events) : (s.withEvents x).accounts = s.accounts := rfl
@[simp] theorem State.withEvents_events (s : State) (x : Events) : (s.withEvents x).events = x := rfl
@[simp] theorem State.withEvents_inbox (s : State) (x : Events) : (s.withEvents x).inbox = s.inbox := rfl
@[simp] theorem State.withEvents_pending (s : State) (x : Events) : (s.withEvents x).pending = s.pending := rfl
@[simp] theorem State.withEvents_active (s : State) (x : Events) : (s.withEvents x).active = s.active := rfl
@[simp] theorem State.withEvents_cfg (s : State) (x : Events) : (s.withEvents x).cfg = s.cfg := rfl

/-! ### withInbox -/

@[simp] theorem State.withInbox_startup (s : State) (x : Inbox) : (s.withInbox x).startup = s.startup := rfl
@[simp] theorem State.withInbox_lines (s : State) (x : Inbox) : (s.withInbox x).lines = s.lines := rfl
@[simp] theorem State.withInbox_scanner (s : State) (x : Inbox) : (s.withInbox x).scanner = s.scanner := rfl
@[simp] theorem State.withInbox_link (s : State) (x : Inbox) : (s.withInbox x).link = s.link := rfl
@[simp] theorem State.withInbox_roster (s : State) (x : Inbox) : (s.withInbox x).roster = s.roster := rfl
@[simp] theorem State.withInbox_meter (s : State) (x : Inbox) : (s.withInbox x).meter = s.meter := rfl
@[simp] theorem State.withInbox_compressor (s : State) (x : Inbox) : (s.withInbox x).compressor = s.compressor := rfl
@[simp] theorem State.withInbox_dryer (s : State) (x : Inbox) : (s.withInbox x).dryer = s.dryer := rfl
@[simp] theorem State.withInbox_share (s : State) (x : Inbox) : (s.withInbox x).share = s.share := rfl
@[simp] theorem State.withInbox_direction (s : State) (x : Inbox) : (s.withInbox x).direction = s.direction := rfl
@[simp] theorem State.withInbox_accounts (s : State) (x : Inbox) : (s.withInbox x).accounts = s.accounts := rfl
@[simp] theorem State.withInbox_events (s : State) (x : Inbox) : (s.withInbox x).events = s.events := rfl
@[simp] theorem State.withInbox_inbox (s : State) (x : Inbox) : (s.withInbox x).inbox = x := rfl
@[simp] theorem State.withInbox_pending (s : State) (x : Inbox) : (s.withInbox x).pending = s.pending := rfl
@[simp] theorem State.withInbox_active (s : State) (x : Inbox) : (s.withInbox x).active = s.active := rfl
@[simp] theorem State.withInbox_cfg (s : State) (x : Inbox) : (s.withInbox x).cfg = s.cfg := rfl

/-! ### withPending -/

@[simp] theorem State.withPending_startup (s : State) (x : List Instr) : (s.withPending x).startup = s.startup := rfl
@[simp] theorem State.withPending_lines (s : State) (x : List Instr) : (s.withPending x).lines = s.lines := rfl
@[simp] theorem State.withPending_scanner (s : State) (x : List Instr) : (s.withPending x).scanner = s.scanner := rfl
@[simp] theorem State.withPending_link (s : State) (x : List Instr) : (s.withPending x).link = s.link := rfl
@[simp] theorem State.withPending_roster (s : State) (x : List Instr) : (s.withPending x).roster = s.roster := rfl
@[simp] theorem State.withPending_meter (s : State) (x : List Instr) : (s.withPending x).meter = s.meter := rfl
@[simp] theorem State.withPending_compressor (s : State) (x : List Instr) : (s.withPending x).compressor = s.compressor := rfl
@[simp] theorem State.withPending_dryer (s : State) (x : List Instr) : (s.withPending x).dryer = s.dryer := rfl
@[simp] theorem State.withPending_share (s : State) (x : List Instr) : (s.withPending x).share = s.share := rfl
@[simp] theorem State.withPending_direction (s : State) (x : List Instr) : (s.withPending x).direction = s.direction := rfl
@[simp] theorem State.withPending_accounts (s : State) (x : List Instr) : (s.withPending x).accounts = s.accounts := rfl
@[simp] theorem State.withPending_events (s : State) (x : List Instr) : (s.withPending x).events = s.events := rfl
@[simp] theorem State.withPending_inbox (s : State) (x : List Instr) : (s.withPending x).inbox = s.inbox := rfl
@[simp] theorem State.withPending_pending (s : State) (x : List Instr) : (s.withPending x).pending = x := rfl
@[simp] theorem State.withPending_active (s : State) (x : List Instr) : (s.withPending x).active = s.active := rfl
@[simp] theorem State.withPending_cfg (s : State) (x : List Instr) : (s.withPending x).cfg = s.cfg := rfl

/-! ### setRequests -/

@[simp] theorem State.setRequests_startup (s : State) (f : DriveReqs → DriveReqs) : (s.setRequests f).startup = s.startup := rfl
@[simp] theorem State.setRequests_scanner (s : State) (f : DriveReqs → DriveReqs) : (s.setRequests f).scanner = s.scanner := rfl
@[simp] theorem State.setRequests_link (s : State) (f : DriveReqs → DriveReqs) : (s.setRequests f).link = s.link := rfl
@[simp] theorem State.setRequests_roster (s : State) (f : DriveReqs → DriveReqs) : (s.setRequests f).roster = s.roster := rfl
@[simp] theorem State.setRequests_meter (s : State) (f : DriveReqs → DriveReqs) : (s.setRequests f).meter = s.meter := rfl
@[simp] theorem State.setRequests_compressor (s : State) (f : DriveReqs → DriveReqs) : (s.setRequests f).compressor = s.compressor := rfl
@[simp] theorem State.setRequests_dryer (s : State) (f : DriveReqs → DriveReqs) : (s.setRequests f).dryer = s.dryer := rfl
@[simp] theorem State.setRequests_share (s : State) (f : DriveReqs → DriveReqs) : (s.setRequests f).share = s.share := rfl
@[simp] theorem State.setRequests_direction (s : State) (f : DriveReqs → DriveReqs) : (s.setRequests f).direction = s.direction := rfl
@[simp] theorem State.setRequests_accounts (s : State) (f : DriveReqs → DriveReqs) : (s.setRequests f).accounts = s.accounts := rfl
@[simp] theorem State.setRequests_events (s : State) (f : DriveReqs → DriveReqs) : (s.setRequests f).events = s.events := rfl
@[simp] theorem State.setRequests_inbox (s : State) (f : DriveReqs → DriveReqs) : (s.setRequests f).inbox = s.inbox := rfl
@[simp] theorem State.setRequests_pending (s : State) (f : DriveReqs → DriveReqs) : (s.setRequests f).pending = s.pending := rfl
@[simp] theorem State.setRequests_requests (s : State) (f : DriveReqs → DriveReqs) :
    (s.setRequests f).lines.requests = f s.lines.requests := rfl
@[simp] theorem State.setRequests_recs (s : State) (f : DriveReqs → DriveReqs) :
    (s.setRequests f).lines.recs = s.lines.recs := rfl
@[simp] theorem State.setRequests_appliedDuty (s : State) (f : DriveReqs → DriveReqs) :
    (s.setRequests f).lines.appliedDuty = s.lines.appliedDuty := rfl
@[simp] theorem State.setRequests_active (s : State) (f : DriveReqs → DriveReqs) :
    (s.setRequests f).active = s.active := rfl
@[simp] theorem State.setRequests_cfg (s : State) (f : DriveReqs → DriveReqs) :
    (s.setRequests f).cfg = s.cfg := rfl

end Sys2Proof.Machine
end

