-- ==== Sys2Proof/Laws/Ops.lean ====
section
/-! SUPPORT. What each shared operation can do, said once: posting, the station-state guard, taking a
frame, taking a line's change. -/

namespace Sys2Proof.Machine

/-! ### post (R194, R196) -/

@[simp] theorem post_startup (k : EventKind) (d : Nat) (s : State) : (post k d s).startup = s.startup := by
  unfold post; split <;> [split; skip] <;> rfl

@[simp] theorem post_lines (k : EventKind) (d : Nat) (s : State) : (post k d s).lines = s.lines := by
  unfold post; split <;> [split; skip] <;> rfl

@[simp] theorem post_scanner (k : EventKind) (d : Nat) (s : State) : (post k d s).scanner = s.scanner := by
  unfold post; split <;> [split; skip] <;> rfl

@[simp] theorem post_link (k : EventKind) (d : Nat) (s : State) : (post k d s).link = s.link := by
  unfold post; split <;> [split; skip] <;> rfl

@[simp] theorem post_roster (k : EventKind) (d : Nat) (s : State) : (post k d s).roster = s.roster := by
  unfold post; split <;> [split; skip] <;> rfl

@[simp] theorem post_meter (k : EventKind) (d : Nat) (s : State) : (post k d s).meter = s.meter := by
  unfold post; split <;> [split; skip] <;> rfl

@[simp] theorem post_compressor (k : EventKind) (d : Nat) (s : State) : (post k d s).compressor = s.compressor := by
  unfold post; split <;> [split; skip] <;> rfl

@[simp] theorem post_dryer (k : EventKind) (d : Nat) (s : State) : (post k d s).dryer = s.dryer := by
  unfold post; split <;> [split; skip] <;> rfl

@[simp] theorem post_share (k : EventKind) (d : Nat) (s : State) : (post k d s).share = s.share := by
  unfold post; split <;> [split; skip] <;> rfl

@[simp] theorem post_direction (k : EventKind) (d : Nat) (s : State) : (post k d s).direction = s.direction := by
  unfold post; split <;> [split; skip] <;> rfl

@[simp] theorem post_accounts (k : EventKind) (d : Nat) (s : State) : (post k d s).accounts = s.accounts := by
  unfold post; split <;> [split; skip] <;> rfl

@[simp] theorem post_inbox (k : EventKind) (d : Nat) (s : State) : (post k d s).inbox = s.inbox := by
  unfold post; split <;> [split; skip] <;> rfl

@[simp] theorem post_pending (k : EventKind) (d : Nat) (s : State) : (post k d s).pending = s.pending := by
  unfold post; split <;> [split; skip] <;> rfl

@[simp] theorem post_active (k : EventKind) (d : Nat) (s : State) : (post k d s).active = s.active := by
  simp [State.active]

@[simp] theorem post_cfg (k : EventKind) (d : Nat) (s : State) : (post k d s).cfg = s.cfg := by
  simp [State.cfg]

/-- R194: a record with the clock as it stands, where there is a place. -/
theorem post_room (k : EventKind) (d : Nat) (s : State) (ha : s.active = true)
    (hr : s.events.queue.length < 10) :
    (post k d s).events = { s.events with
      queue := s.events.queue ++ [{ kind := k, detail := d, seconds := s.events.clock }] } := by
  simp [post, ha, Config.eventPlaces, hr]

/-- R194: no place, the event is dropped and EVENTS_LOST is set. -/
theorem post_full (k : EventKind) (d : Nat) (s : State) (ha : s.active = true)
    (hr : ¬s.events.queue.length < 10) :
    (post k d s).events = { s.events with lost := true } := by
  simp [post, ha, Config.eventPlaces, hr]

/-- R196: outside LISTENING and RUNNING no event is posted. -/
theorem post_inactive (k : EventKind) (d : Nat) (s : State) (ha : s.active = false) : post k d s = s := by
  simp [post, ha]

/-! ### postAll (R194) -/

@[simp] theorem postAll_nil (s : State) : postAll [] s = s := rfl
@[simp] theorem postAll_cons (e : EventKind × Nat) (rest : List (EventKind × Nat)) (s : State) :
    postAll (e :: rest) s = postAll rest (post e.1 e.2 s) := rfl

@[simp] theorem postAll_startup (es : List (EventKind × Nat)) (s : State) : (postAll es s).startup = s.startup := by
  induction es generalizing s with
  | nil => rfl
  | cons e es ih => simp [ih]

@[simp] theorem postAll_lines (es : List (EventKind × Nat)) (s : State) : (postAll es s).lines = s.lines := by
  induction es generalizing s with
  | nil => rfl
  | cons e es ih => simp [ih]

@[simp] theorem postAll_scanner (es : List (EventKind × Nat)) (s : State) : (postAll es s).scanner = s.scanner := by
  induction es generalizing s with
  | nil => rfl
  | cons e es ih => simp [ih]

@[simp] theorem postAll_link (es : List (EventKind × Nat)) (s : State) : (postAll es s).link = s.link := by
  induction es generalizing s with
  | nil => rfl
  | cons e es ih => simp [ih]

@[simp] theorem postAll_roster (es : List (EventKind × Nat)) (s : State) : (postAll es s).roster = s.roster := by
  induction es generalizing s with
  | nil => rfl
  | cons e es ih => simp [ih]

@[simp] theorem postAll_meter (es : List (EventKind × Nat)) (s : State) : (postAll es s).meter = s.meter := by
  induction es generalizing s with
  | nil => rfl
  | cons e es ih => simp [ih]

@[simp] theorem postAll_compressor (es : List (EventKind × Nat)) (s : State) : (postAll es s).compressor = s.compressor := by
  induction es generalizing s with
  | nil => rfl
  | cons e es ih => simp [ih]

@[simp] theorem postAll_dryer (es : List (EventKind × Nat)) (s : State) : (postAll es s).dryer = s.dryer := by
  induction es generalizing s with
  | nil => rfl
  | cons e es ih => simp [ih]

@[simp] theorem postAll_share (es : List (EventKind × Nat)) (s : State) : (postAll es s).share = s.share := by
  induction es generalizing s with
  | nil => rfl
  | cons e es ih => simp [ih]

@[simp] theorem postAll_direction (es : List (EventKind × Nat)) (s : State) : (postAll es s).direction = s.direction := by
  induction es generalizing s with
  | nil => rfl
  | cons e es ih => simp [ih]

@[simp] theorem postAll_accounts (es : List (EventKind × Nat)) (s : State) : (postAll es s).accounts = s.accounts := by
  induction es generalizing s with
  | nil => rfl
  | cons e es ih => simp [ih]

@[simp] theorem postAll_inbox (es : List (EventKind × Nat)) (s : State) : (postAll es s).inbox = s.inbox := by
  induction es generalizing s with
  | nil => rfl
  | cons e es ih => simp [ih]

@[simp] theorem postAll_pending (es : List (EventKind × Nat)) (s : State) : (postAll es s).pending = s.pending := by
  induction es generalizing s with
  | nil => rfl
  | cons e es ih => simp [ih]

@[simp] theorem postAll_active (es : List (EventKind × Nat)) (s : State) : (postAll es s).active = s.active := by
  induction es generalizing s with
  | nil => rfl
  | cons e es ih => simp [ih]

@[simp] theorem postAll_cfg (es : List (EventKind × Nat)) (s : State) : (postAll es s).cfg = s.cfg := by
  induction es generalizing s with
  | nil => rfl
  | cons e es ih => simp [ih]

/-- Posting two lists one after the other. -/
theorem postAll_append (es fs : List (EventKind × Nat)) (s : State) :
    postAll (es ++ fs) s = postAll fs (postAll es s) := by
  induction es generalizing s with
  | nil => rfl
  | cons e es ih => simp [ih]

/-- What is posted depends only on the station state and on the event queue as it stands. -/
theorem post_events_congr (k : EventKind) (d : Nat) (s t : State) (ha : t.active = s.active)
    (he : t.events = s.events) : (post k d t).events = (post k d s).events := by
  simp only [post, ha, he]
  split <;> [split; skip] <;> simp_all

theorem postAll_events_congr (es : List (EventKind × Nat)) (s t : State) (ha : t.active = s.active)
    (he : t.events = s.events) : (postAll es t).events = (postAll es s).events := by
  induction es generalizing s t with
  | nil => exact he
  | cons e es ih => exact ih _ _ (by simp [ha]) (post_events_congr e.1 e.2 s t ha he)

/-! ### whenActive -/

theorem whenActive_on (s : State) (f : State → State) (h : s.active = true) : whenActive s f = f s := by
  simp [whenActive, h]

theorem whenActive_off (s : State) (f : State → State) (h : s.active = false) : whenActive s f = s := by
  simp [whenActive, h]

/-- What holds of `s` and of what `f` makes of it holds after the guard. -/
theorem whenActive_keeps (p : State → Prop) (s : State) (f : State → State) (hs : p s)
    (hf : s.active = true → p (f s)) : p (whenActive s f) := by
  unfold whenActive
  split
  · exact hf ‹_›
  · exact hs

/-! ### Taking a frame (R29) -/

/-- Nothing of the consumer's waits: no change. -/
theorem takeBy_none (c : Consumer) (s : State) (act : RxFrame → Option (State → State))
    (h : takeFrame c s.link.buffers = none) : takeBy c s act = s := by
  simp [takeBy, whenActive, h]

/-- The oldest frame of the consumer is taken and acted on. -/
theorem takeBy_some (c : Consumer) (s : State) (act : RxFrame → Option (State → State)) (f : RxFrame)
    (rest : List RxFrame) (g : State → State) (ha : s.active = true)
    (h : takeFrame c s.link.buffers = some (f, rest)) (hg : act f = some g) :
    takeBy c s act = g (s.withLink { s.link with buffers := rest }) := by
  simp [takeBy, whenActive, ha, h, hg]

/-- What a take can do: nothing, or the action on the state with the frame's buffer freed. -/
theorem takeBy_keeps (p : State → Prop) (c : Consumer) (s : State)
    (act : RxFrame → Option (State → State)) (hs : p s)
    (hg : ∀ f rest g, takeFrame c s.link.buffers = some (f, rest) → act f = some g →
      p (g (s.withLink { s.link with buffers := rest }))) : p (takeBy c s act) := by
  unfold takeBy
  apply whenActive_keeps p s _ hs
  intro _
  cases h : takeFrame c s.link.buffers with
  | none => simpa using hs
  | some fr =>
    obtain ⟨f, rest⟩ := fr
    cases hact : act f with
    | none => simpa [hact] using hs
    | some g => simpa [hact] using hg f rest g h hact

/-- What `takeFrame` answers: the first frame of the consumer, the others in their order (R29). -/
theorem takeFrame_iff (c : Consumer) (bs rest : List RxFrame) (f : RxFrame) :
    takeFrame c bs = some (f, rest) ↔ ∃ before after, bs = before ++ f :: after ∧
      rest = before ++ after ∧ consumerOf f.body = c ∧ ∀ g ∈ before, consumerOf g.body ≠ c := by
  induction bs generalizing rest with
  | nil => simp [takeFrame]
  | cons b bs ih =>
    unfold takeFrame
    split
    · rename_i h
      constructor
      · intro hh
        simp at hh
        obtain ⟨rfl, rfl⟩ := hh
        exact ⟨[], bs, rfl, rfl, h, by simp⟩
      · rintro ⟨before, after, h1, h2, h3, h4⟩
        cases before with
        | nil => simp at h1; simp [h1, h2]
        | cons g gs => simp at h1; exact absurd (h1.1 ▸ h) (h4 g (by simp))
    · rename_i h
      constructor
      · intro hh
        simp only [Option.map_eq_some_iff] at hh
        obtain ⟨⟨g, others⟩, h1, h2⟩ := hh
        simp at h2
        obtain ⟨rfl, rfl⟩ := h2
        obtain ⟨before, after, e1, e2, e3, e4⟩ := (ih others).1 h1
        exact ⟨b :: before, after, by simp [e1], by simp [e2], e3, by simpa [h] using e4⟩
      · rintro ⟨before, after, h1, h2, h3, h4⟩
        cases before with
        | nil => simp at h1; exact absurd (h1.1 ▸ h3) h
        | cons g gs =>
          simp at h1
          obtain ⟨rfl, h1⟩ := h1
          have h5 := (ih (gs ++ after)).2
            ⟨gs, after, h1, rfl, h3, fun x hx => h4 x (by simp [hx])⟩
          simp [h5, h2]

/-- The frame taken is the consumer's, and the buffers lose that frame alone. -/
theorem takeFrame_length (c : Consumer) (bs : List RxFrame) (f : RxFrame) (rest : List RxFrame)
    (h : takeFrame c bs = some (f, rest)) : consumerOf f.body = c ∧ rest.length + 1 = bs.length := by
  induction bs generalizing f rest with
  | nil => simp [takeFrame] at h
  | cons b bs ih =>
    unfold takeFrame at h
    split at h
    · simp only [Option.some.injEq, Prod.mk.injEq] at h
      obtain ⟨rfl, rfl⟩ := h
      exact ⟨‹_›, rfl⟩
    · cases ht : takeFrame c bs with
      | none => simp [ht] at h
      | some gr =>
        obtain ⟨g, others⟩ := gr
        simp only [ht, Option.map_some, Option.some.injEq, Prod.mk.injEq] at h
        obtain ⟨rfl, rfl⟩ := h
        have := ih g others ht
        exact ⟨this.1, by simp [← this.2]⟩

/-! ### Taking a line's change (R6) -/

/-- What a take of a line's change can do: nothing, or the action with the change removed. -/
theorem takeLine_keeps (p : State → Prop) (role : Role) (lvl : Bool) (s : State) (act : State → State)
    (hs : p s)
    (ha : ∀ rest, takeChange role s.inbox.lineChanges = some (lvl, rest) →
      p (act (s.withInbox { s.inbox with lineChanges := rest }))) : p (takeLine role lvl s act) := by
  unfold takeLine
  apply whenActive_keeps p s _ hs
  intro _
  cases h : takeChange role s.inbox.lineChanges with
  | none => simpa using hs
  | some lr =>
    obtain ⟨l, rest⟩ := lr
    by_cases hl : l = lvl
    · subst hl; simpa using ha rest h
    · simpa [hl] using hs

/-- The change is taken and acted on. -/
theorem takeLine_some (role : Role) (lvl : Bool) (s : State) (act : State → State)
    (rest : List (Role × Bool)) (ha : s.active = true)
    (h : takeChange role s.inbox.lineChanges = some (lvl, rest)) :
    takeLine role lvl s act = act (s.withInbox { s.inbox with lineChanges := rest }) := by
  simp [takeLine, whenActive, ha, h]

end Sys2Proof.Machine
end

