-- ==== Sys2Proof/Laws/Frames.lean ====
section
/-! SUPPORT. The frame of each shared operation, one lemma each: which blocks it may change
(`KeepsAllBut`), and how such frames compose. -/

namespace Sys2Proof.Machine

/-! ### Composing frames -/

theorem KeepsAllBut.refl (bs : List Block) (s : State) : KeepsAllBut bs s s := by
  intro b _
  cases b <;> rfl

theorem SameBlock.trans {s t u : State} {b : Block} (h : SameBlock s t b) (k : SameBlock t u b) :
    SameBlock s u b := by
  cases b <;> exact Eq.trans k h

theorem KeepsAllBut.trans {as bs : List Block} {s t u : State} (h : KeepsAllBut as s t)
    (k : KeepsAllBut bs t u) : KeepsAllBut (as ++ bs) s u := fun b hb =>
  (h b fun m => hb (List.mem_append_left _ m)).trans (k b fun m => hb (List.mem_append_right _ m))

theorem KeepsAllBut.mono {as bs : List Block} {s t : State} (h : KeepsAllBut as s t)
    (sub : ∀ b ∈ as, b ∈ bs) : KeepsAllBut bs s t := fun b hb => h b fun m => hb (sub b m)

/-- Two operations in a row, within one list. -/
theorem KeepsAllBut.then {bs : List Block} {s t u : State} (h : KeepsAllBut bs s t)
    (k : KeepsAllBut bs t u) : KeepsAllBut bs s u := (h.trans k).mono (by simp)

theorem KeepsAllBut.active {bs : List Block} {s t : State} (h : KeepsAllBut bs s t)
    (hb : Block.startup ∉ bs) : t.active = s.active := by
  have := h .startup hb
  simp only [SameBlock] at this
  simp [State.active, this]

theorem KeepsAllBut.cfg {bs : List Block} {s t : State} (h : KeepsAllBut bs s t)
    (hb : Block.startup ∉ bs) : t.cfg = s.cfg := by
  have := h .startup hb
  simp only [SameBlock] at this
  simp [State.cfg, this]

/-! ### Replacing one block -/

theorem withStartup_keeps (s : State) (x : StartUp) : KeepsAllBut [.startup] s (s.withStartup x) := by
  intro b hb; cases b <;> first | rfl | exact absurd (by decide) hb

theorem withLines_keeps (s : State) (x : FieldLines) : KeepsAllBut [.lines] s (s.withLines x) := by
  intro b hb; cases b <;> first | rfl | exact absurd (by decide) hb

theorem withScanner_keeps (s : State) (x : Scanner) : KeepsAllBut [.scanner] s (s.withScanner x) := by
  intro b hb; cases b <;> first | rfl | exact absurd (by decide) hb

theorem withLink_keeps (s : State) (x : Link) : KeepsAllBut [.link] s (s.withLink x) := by
  intro b hb; cases b <;> first | rfl | exact absurd (by decide) hb

theorem withRoster_keeps (s : State) (x : List PeerRec) : KeepsAllBut [.roster] s (s.withRoster x) := by
  intro b hb; cases b <;> first | rfl | exact absurd (by decide) hb

theorem withMeter_keeps (s : State) (x : Meter) : KeepsAllBut [.meter] s (s.withMeter x) := by
  intro b hb; cases b <;> first | rfl | exact absurd (by decide) hb

theorem withCompressor_keeps (s : State) (x : Compressor) : KeepsAllBut [.compressor] s (s.withCompressor x) := by
  intro b hb; cases b <;> first | rfl | exact absurd (by decide) hb

theorem withDryer_keeps (s : State) (x : Dryer) : KeepsAllBut [.dryer] s (s.withDryer x) := by
  intro b hb; cases b <;> first | rfl | exact absurd (by decide) hb

theorem withShare_keeps (s : State) (x : Share) : KeepsAllBut [.share] s (s.withShare x) := by
  intro b hb; cases b <;> first | rfl | exact absurd (by decide) hb

theorem withDirection_keeps (s : State) (x : Direction) : KeepsAllBut [.direction] s (s.withDirection x) := by
  intro b hb; cases b <;> first | rfl | exact absurd (by decide) hb

theorem withAccounts_keeps (s : State) (x : Accounts) : KeepsAllBut [.accounts] s (s.withAccounts x) := by
  intro b hb; cases b <;> first | rfl | exact absurd (by decide) hb

theorem withEvents_keeps (s : State) (x : Events) : KeepsAllBut [.events] s (s.withEvents x) := by
  intro b hb; cases b <;> first | rfl | exact absurd (by decide) hb

theorem withInbox_keeps (s : State) (x : Inbox) : KeepsAllBut [.inbox] s (s.withInbox x) := by
  intro b hb; cases b <;> first | rfl | exact absurd (by decide) hb

theorem setRequests_keeps (s : State) (f : DriveReqs → DriveReqs) :
    KeepsAllBut [.lines] s (s.setRequests f) := withLines_keeps s _

/-! ### Posting and taking -/

theorem post_keeps (k : EventKind) (d : Nat) (s : State) : KeepsAllBut [.events] s (post k d s) := by
  intro b hb; cases b <;> first | exact absurd (by decide) hb | simp [SameBlock]

theorem postAll_keeps (es : List (EventKind × Nat)) (s : State) :
    KeepsAllBut [.events] s (postAll es s) := by
  intro b hb; cases b <;> first | exact absurd (by decide) hb | simp [SameBlock]

theorem whenActive_frame {bs : List Block} {s : State} {f : State → State}
    (h : KeepsAllBut bs s (f s)) : KeepsAllBut bs s (whenActive s f) := by
  unfold whenActive; split
  · exact h
  · exact .refl _ _

/-- A frame is taken from the link's buffers, and the consumer acts. -/
theorem takeBy_frame {bs : List Block} {c : Consumer} {s : State}
    {act : RxFrame → Option (State → State)} (hl : Block.link ∈ bs)
    (h : ∀ f g t, act f = some g → KeepsAllBut bs t (g t)) : KeepsAllBut bs s (takeBy c s act) := by
  apply takeBy_keeps (fun t => KeepsAllBut bs s t) c s act (.refl _ _)
  intro f rest g _ hg
  exact ((withLink_keeps s _).mono (by simpa using hl)).then (h f g _ hg)

/-- A line's change is taken from the inbox, and its owner acts. -/
theorem takeLine_frame {bs : List Block} {role : Role} {lvl : Bool} {s : State} {act : State → State}
    (hi : Block.inbox ∈ bs) (h : ∀ t, KeepsAllBut bs t (act t)) :
    KeepsAllBut bs s (takeLine role lvl s act) := by
  apply takeLine_keeps (fun t => KeepsAllBut bs s t) role lvl s act (.refl _ _)
  intro rest _
  exact ((withInbox_keeps s _).mono (by simpa using hi)).then (h _)

/-! ### Field lines, sensor scan -/

theorem senseLevelChange_keeps (n : Nat) (high : Bool) (s : State) :
    KeepsAllBut [.lines] s (senseLevelChange n high s) := by
  unfold senseLevelChange setPin
  split
  · split
    · exact .refl _ _
    · split
      · exact withLines_keeps s _
      · exact .refl _ _
  · exact withLines_keeps s _

theorem countEdge_keeps (n : Nat) (high : Bool) (s : State) :
    KeepsAllBut [.lines] s (countEdge n high s) := by
  unfold countEdge setPin
  split
  · split
    · exact .refl _ _
    · split
      · exact withLines_keeps s _
      · exact .refl _ _
  · exact withLines_keeps s _

theorem deliverChange_keeps (role : Role) (lvl : Bool) (s : State) :
    KeepsAllBut [.inbox] s (deliverChange role lvl s) := by
  unfold deliverChange
  split
  · exact .refl _ _
  · exact withInbox_keeps s _

theorem takeReading_keeps (q : Qty) (reply : List Byte) (s : State) :
    KeepsAllBut [.scanner, .events, .inbox] s (takeReading q reply s) := by
  have h (x : Scanner) (es : List (EventKind × Nat)) :
      KeepsAllBut [.scanner, .events, .inbox] s (postAll es (s.withScanner x)) :=
    ((withScanner_keeps s x).mono (by decide)).then ((postAll_keeps _ _).mono (by decide))
  simp only [takeReading, deliverDew]
  split
  · exact (h _ _).then ((withInbox_keeps _ _).mono (by decide))
  · exact h _ _

/-! ### Link, accounts -/

theorem offerReport_keeps (n : Nat) (p : List Byte) (s : State) :
    KeepsAllBut [.link, .events] s (offerReport n p s) := by
  unfold offerReport
  split
  · exact (withLink_keeps s _).mono (by decide)
  · exact (post_keeps _ _ s).mono (by decide)

theorem rotate_keeps (seq : Word16) (s : State) :
    KeepsAllBut [.accounts, .events] s (rotate seq s) := by
  exact ((withAccounts_keeps s _).mono (by decide)).then (((postAll_keeps _ _).mono (by decide)))

theorem marked_keeps (elapsed : Nat) (s : State) :
    KeepsAllBut [.accounts, .events] s (marked elapsed s) := by
  exact ((withAccounts_keeps s _).mono (by decide))

theorem markBy_keeps (seq : Word16) (elapsed : Nat) (s : State) :
    KeepsAllBut [.accounts, .events] s (markBy seq elapsed s) := by
  simp only [markBy]
  split
  · exact ((withAccounts_keeps s _).mono (by decide)).then (marked_keeps _ _)
  · split
    · exact marked_keeps _ _
    · split
      · exact (rotate_keeps _ _).then (marked_keeps _ _)
      · split
        · exact ((rotate_keeps _ _).then ((post_keeps _ _ _).mono (by decide))).then (marked_keeps _ _)
        · exact .refl _ _

theorem ownClockRotation_keeps (s : State) :
    KeepsAllBut [.accounts, .events] s (ownClockRotation s) := by
  exact ((rotate_keeps _ _).then ((withAccounts_keeps _ _).mono (by decide))).then
    ((post_keeps _ _ _).mono (by decide))

theorem setupBy_keeps (code injR wdR : Nat) (s : State) :
    KeepsAllBut [.accounts, .events] s (setupBy code injR wdR s) := by
  unfold setupBy setupFound
  split
  · exact (post_keeps _ _ s).mono (by decide)
  · split
    · exact ((withAccounts_keeps s _).mono (by decide)).then ((postAll_keeps _ _).mono (by decide))
    · split
      · exact (post_keeps _ _ s).mono (by decide)
      · exact (withAccounts_keeps s _).mono (by decide)

theorem balanceBy_keeps (code : Nat) (amount : Int) (s : State) :
    KeepsAllBut [.accounts, .events] s (balanceBy code amount s) := by
  unfold balanceBy
  split
  · exact (post_keeps _ _ s).mono (by decide)
  · exact (withAccounts_keeps s _).mono (by decide)

theorem retireBy_keeps (code : Nat) (s : State) :
    KeepsAllBut [.accounts, .events] s (retireBy code s) := by
  unfold retireBy
  split
  · exact (post_keeps _ _ s).mono (by decide)
  · split
    · exact (post_keeps _ _ s).mono (by decide)
    · exact (withAccounts_keeps s _).mono (by decide)

theorem nominateBy_keeps (seq : Word16) (code : Nat) (rate : Int) (s : State) :
    KeepsAllBut [.accounts, .events] s (nominateBy seq code rate s) := by
  unfold nominateBy
  split
  · exact (post_keeps _ _ s).mono (by decide)
  · split
    · exact (post_keeps _ _ s).mono (by decide)
    · split
      · exact (post_keeps _ _ s).mono (by decide)
      · exact ((withAccounts_keeps s _).mono (by decide)).then ((postAll_keeps _ _).mono (by decide))

/-! ### Compressor duty -/

theorem setUnit_keeps (u : UnitId) (r : UnitRec) (s : State) :
    KeepsAllBut [.compressor] s (s.setUnit u r) := by
  exact withCompressor_keeps s _

theorem setRunCmd_keeps (u : UnitId) (b : Bool) (s : State) :
    KeepsAllBut [.lines] s (setRunCmd u b s) := by
  exact setRequests_keeps s _

theorem notify_keeps (entered : Bool) (s : State) :
    KeepsAllBut [.inbox] s (notify entered s) := by
  exact withInbox_keeps s _

theorem enterRunning_keeps (u : UnitId) (s : State) :
    KeepsAllBut [.compressor, .lines, .inbox] s (enterRunning u s) := by
  exact ((setUnit_keeps u _ s).mono (by decide)).then ((notify_keeps _ _).mono (by decide))

theorem leaveTo_keeps (u : UnitId) (dest : UnitState) (s : State) :
    KeepsAllBut [.compressor, .lines, .inbox] s (leaveTo u dest s) := by
  have h (r : UnitRec) : KeepsAllBut [.compressor, .lines, .inbox] s (setRunCmd u false (s.setUnit u r)) :=
    ((setUnit_keeps u r s).mono (by decide)).then ((setRunCmd_keeps u false _).mono (by decide))
  simp only [leaveTo]
  split
  · exact (h _).then (((setUnit_keeps _ _ _).mono (by decide)).then ((notify_keeps _ _).mono (by decide)))
  · exact h _

theorem startRequest_keeps (u : UnitId) (s : State) :
    KeepsAllBut [.compressor, .lines, .inbox] s (startRequest u s) := by
  have h (r : UnitRec) : KeepsAllBut [.compressor, .lines, .inbox] s (setRunCmd u true (s.setUnit u r)) :=
    ((setUnit_keeps u r s).mono (by decide)).then ((setRunCmd_keeps u true _).mono (by decide))
  simp only [startRequest]
  split
  · exact (h _).then (enterRunning_keeps u _)
  · exact h _

theorem stopRequest_keeps (u : UnitId) (s : State) :
    KeepsAllBut [.compressor, .lines, .inbox] s (stopRequest u s) := by
  unfold stopRequest
  split <;> first | exact leaveTo_keeps u _ s | exact .refl _ _

theorem tripUnit_keeps (u : UnitId) (cause : Nat) (s : State) :
    KeepsAllBut [.compressor, .lines, .inbox, .events] s (tripUnit u cause s) := by
  have h (dest : UnitState) : KeepsAllBut [.compressor, .lines, .inbox, .events] s
      (leaveTo u dest (post .unitTrip (unitNumber u + 256 * cause) s)) :=
    ((post_keeps _ _ s).mono (by decide)).then ((leaveTo_keeps u dest _).mono (by decide))
  simp only [tripUnit]
  split
  · exact (h _).then ((post_keeps _ _ _).mono (by decide))
  · exact h _

theorem leadChoice_keeps (s : State) :
    KeepsAllBut [.compressor, .lines, .inbox] s (leadChoice s) := by
  unfold leadChoice
  split
  · split
    · exact startRequest_keeps _ s
    · exact .refl _ _
  · exact .refl _ _

theorem judgeOnce_keeps (s : State) :
    KeepsAllBut [.compressor, .lines, .inbox] s (judgeOnce s) := by
  have h (c : Compressor) (x y : Option UnitId) : KeepsAllBut [.compressor, .lines, .inbox] s
      (match y with
      | some u => stopRequest u (match x with
        | some u => startRequest u (s.withCompressor c)
        | none => s.withCompressor c)
      | none => match x with
        | some u => startRequest u (s.withCompressor c)
        | none => s.withCompressor c) := by
    have w : KeepsAllBut [.compressor, .lines, .inbox] s (s.withCompressor c) :=
      (withCompressor_keeps s c).mono (by decide)
    cases x <;> cases y
    · exact w
    · exact w.then (stopRequest_keeps _ _)
    · exact w.then (startRequest_keeps _ _)
    · exact (w.then (startRequest_keeps _ _)).then (stopRequest_keeps _ _)
  exact h _ _ _

theorem judgeDuty_keeps (s : State) :
    KeepsAllBut [.compressor, .lines, .inbox] s (judgeDuty s) := by
  simp only [judgeDuty]
  split
  · split
    · exact judgeOnce_keeps s
    · exact (judgeOnce_keeps s).then (judgeOnce_keeps _)
  · exact .refl _ _

theorem judgeTrain_keeps (s : State) :
    KeepsAllBut [.compressor, .lines, .inbox] s (judgeTrain s) := by
  exact (leadChoice_keeps s).then (judgeDuty_keeps _)

theorem endLineup_keeps (s : State) :
    KeepsAllBut [.compressor] s (endLineup s) := by
  exact withCompressor_keeps s _

theorem stopDwells_keeps (s : State) :
    KeepsAllBut [.compressor] s (stopDwells s) := by
  exact withCompressor_keeps s _

theorem stopIfStarting_keeps (u : UnitId) (s : State) :
    KeepsAllBut [.compressor, .lines, .inbox] s (stopIfStarting u s) := by
  unfold stopIfStarting
  split
  · exact stopRequest_keeps u s
  · exact .refl _ _

theorem takeDirChange_keeps (st : DirState) (s : State) :
    KeepsAllBut [.compressor, .lines, .inbox] s (takeDirChange st s) := by
  have w (t : State) (x : DirState) : KeepsAllBut [.compressor, .lines, .inbox] t
      (t.withCompressor { t.compressor with trainDir := x }) := (withCompressor_keeps t _).mono (by decide)
  have e (t : State) : KeepsAllBut [.compressor, .lines, .inbox] t (endLineup t) :=
    (endLineup_keeps t).mono (by decide)
  have p (t : State) : KeepsAllBut [.compressor, .lines, .inbox] t (stopDwells t) :=
    (stopDwells_keeps t).mono (by decide)
  have d (t : State) : KeepsAllBut [.compressor, .lines, .inbox] t (dropLineup t) := by
    unfold dropLineup
    split
    · exact (((e t).then (stopIfStarting_keeps _ _)).then (stopIfStarting_keeps _ _)).then (p _)
    · exact p t
  have k (t : State) : KeepsAllBut [.compressor, .lines, .inbox] t (trainStop t) :=
    (((e t).then (stopRequest_keeps _ _)).then (stopRequest_keeps _ _)).then (p _)
  cases st
  · exact (w s _).then (k _)
  · exact ((w s _).then (e _)).then
      (((withCompressor_keeps _ _).mono (by decide)).then (leadChoice_keeps _))
  · exact (w s _).then (d _)
  · exact ((w s _).then (e _)).then (judgeDuty_keeps _)
  · exact (w s _).then (d _)
  · exact (w s _).then (d _)
  · exact (w s _).then (k _)

theorem clearUnitBy_keeps (u : UnitId) (s : State) :
    KeepsAllBut [.compressor, .lines, .inbox, .events] s (clearUnitBy u s) := by
  unfold clearUnitBy
  split
  · split
    · exact (post_keeps _ _ s).mono (by decide)
    · exact ((setUnit_keeps u _ s).mono (by decide)).then ((judgeTrain_keeps _).mono (by decide))
  · exact (post_keeps _ _ s).mono (by decide)

/-! ### Gas drying -/

theorem putDryer_keeps (d : Dryer) (s : State) :
    KeepsAllBut [.dryer, .lines] s (putDryer d s) := by
  exact ((withDryer_keeps s d).mono (by decide)).then (((setRequests_keeps _ _).mono (by decide)))

theorem judgeSwitch_keeps (s : State) :
    KeepsAllBut [.dryer, .lines, .events] s (judgeSwitch s) := by
  unfold judgeSwitch
  split
  · exact ((putDryer_keeps _ s).mono (by decide)).then ((post_keeps _ _ _).mono (by decide))
  · exact .refl _ _

theorem handOver_keeps (s : State) :
    KeepsAllBut [.dryer, .lines] s (handOver s) := by
  unfold handOver
  split
  · split
    · exact putDryer_keeps _ s
    · exact .refl _ _
  · exact .refl _ _

theorem faultTower_keeps (t : Tower) (cause : Nat) (s : State) :
    KeepsAllBut [.dryer, .lines, .events] s (faultTower t cause s) := by
  exact (((putDryer_keeps _ s).mono (by decide)).then ((post_keeps _ _ _).mono (by decide))).then
    ((handOver_keeps _).mono (by decide))

theorem clearTowerBy_keeps (t : Tower) (s : State) :
    KeepsAllBut [.dryer, .lines, .events] s (clearTowerBy t s) := by
  unfold clearTowerBy
  split
  · exact ((putDryer_keeps _ s).then (handOver_keeps _)).mono (by decide)
  · exact (post_keeps _ _ s).mono (by decide)

theorem judgeDew_keeps (st : QState) (v : Int) (s : State) :
    KeepsAllBut [.dryer, .lines, .events] s (judgeDew st v s) := by
  have w (d : Dryer) : KeepsAllBut [.dryer, .lines, .events] s (s.withDryer d) :=
    (withDryer_keeps s d).mono (by decide)
  simp only [judgeDew]
  split
  · exact ((w _).then ((post_keeps _ _ _).mono (by decide))).then (judgeSwitch_keeps _)
  · split
    · exact (w _).then ((post_keeps _ _ _).mono (by decide))
    · exact w _

/-! ### Direction and ramp -/

theorem setValves_keeps (whv injv wdv trip : Bool) (s : State) :
    KeepsAllBut [.lines] s (setValves whv injv wdv trip s) := by
  exact setRequests_keeps s _

theorem openValves_keeps (f : Flow) (s : State) :
    KeepsAllBut [.lines] s (openValves f s) := by
  cases f <;> exact setRequests_keeps s _

theorem tellTrain_keeps (s : State) :
    KeepsAllBut [.inbox] s (tellTrain s) := by
  exact withInbox_keeps s _

theorem tellMeter_keeps (s : State) :
    KeepsAllBut [.inbox] s (tellMeter s) := by
  exact withInbox_keeps s _

theorem enterFlow_keeps (f : Flow) (s : State) :
    KeepsAllBut [.direction, .lines, .inbox, .events] s (enterFlow f s) := by
  exact ((withDirection_keeps s _).mono (by decide)).then (((openValves_keeps f _).mono (by decide)).then (((tellTrain_keeps _).mono (by decide)).then (((post_keeps _ _ _).mono (by decide)))))

theorem judgeLineup_keeps (s : State) :
    KeepsAllBut [.direction, .lines, .inbox, .events] s (judgeLineup s) := by
  unfold judgeLineup
  split
  · exact .refl _ _
  · split
    · exact enterFlow_keeps _ s
    · exact .refl _ _

theorem enterLineup_keeps (f : Flow) (s : State) :
    KeepsAllBut [.direction, .lines, .inbox, .events] s (enterLineup f s) := by
  exact ((withDirection_keeps s _).mono (by decide)).then (((openValves_keeps f _).mono (by decide)).then (((tellTrain_keeps _).mono (by decide)).then (((judgeLineup_keeps _).mono (by decide)))))

theorem judgeExit_keeps (s : State) :
    KeepsAllBut [.direction, .lines, .inbox, .events] s (judgeExit s) := by
  unfold judgeExit
  split
  · split
    · exact enterLineup_keeps _ s
    · exact .refl _ _
  · exact .refl _ _

theorem enterIdle_keeps (s : State) :
    KeepsAllBut [.direction, .lines, .inbox, .events] s (enterIdle s) := by
  exact ((withDirection_keeps s _).mono (by decide)).then (((setValves_keeps _ _ _ _ _).mono (by decide)).then (((tellTrain_keeps _).mono (by decide)).then (((tellMeter_keeps _).mono (by decide)).then (((judgeExit_keeps _).mono (by decide))))))

theorem enterTripped_keeps (cause : TripCause) (s : State) :
    KeepsAllBut [.direction, .lines, .inbox, .events] s (enterTripped cause s) := by
  exact ((withDirection_keeps s _).mono (by decide)).then (((setValves_keeps _ _ _ _ _).mono (by decide)).then (((tellTrain_keeps _).mono (by decide)).then (((tellMeter_keeps _).mono (by decide)).then (((post_keeps _ _ _).mono (by decide))))))

theorem beginClose_keeps (s : State) :
    KeepsAllBut [.direction, .lines, .inbox, .events] s (beginClose s) := by
  have h (d : Direction) : KeepsAllBut [.direction, .lines, .inbox, .events] s
      (setValves false false false false (s.withDirection d)) :=
    ((withDirection_keeps s d).mono (by decide)).then ((setValves_keeps _ _ _ _ _).mono (by decide))
  simp only [beginClose]
  split
  · exact (h _).then (enterIdle_keeps _)
  · exact h _

theorem enterRundown_keeps (f : Flow) (s : State) :
    KeepsAllBut [.direction, .lines, .inbox, .events] s (enterRundown f s) := by
  have h (d : Direction) : KeepsAllBut [.direction, .lines, .inbox, .events] s
      (tellTrain (s.withDirection d)) :=
    ((withDirection_keeps s d).mono (by decide)).then ((tellTrain_keeps _).mono (by decide))
  simp only [enterRundown]
  split
  · exact (h _).then (beginClose_keeps _)
  · exact h _

theorem deliver_keeps (p : Nat) (d : Dir) (s : State) :
    KeepsAllBut [.direction, .lines, .inbox, .events] s (deliver p d s) := by
  have w (t : State) (x : Direction) : KeepsAllBut [.direction, .lines, .inbox, .events] t
      (t.withDirection x) := (withDirection_keeps t x).mono (by decide)
  have l (f : Flow) (t : State) : KeepsAllBut [.direction, .lines, .inbox, .events] t
      (lineupDelivery f d t) := by
    unfold lineupDelivery
    split
    · exact .refl _ _
    · exact enterRundown_keeps f t
  have k (f : Flow) (t : State) : KeepsAllBut [.direction, .lines, .inbox, .events] t
      (flowDelivery f d t) := by
    unfold flowDelivery
    split
    · exact w t _
    · exact enterRundown_keeps f t
  simp only [deliver]
  split
  · exact (w s _).then (judgeExit_keeps _)
  · exact (w s _).then (l _ _)
  · exact (w s _).then (l _ _)
  · exact (w s _).then (k _ _)
  · exact (w s _).then (k _ _)
  · exact w s _
  · exact w s _

theorem closeAtZero_keeps (s : State) :
    KeepsAllBut [.direction, .lines, .inbox, .events] s (closeAtZero s) := by
  unfold closeAtZero
  split
  · exact beginClose_keeps s
  · exact .refl _ _

theorem takeNoticeOf_keeps (n : Notice) (s : State) :
    KeepsAllBut [.direction, .lines, .inbox, .events] s (takeNoticeOf n s) := by
  have w (t : State) (x : Direction) : KeepsAllBut [.direction, .lines, .inbox, .events] t
      (t.withDirection x) := (withDirection_keeps t x).mono (by decide)
  simp only [takeNoticeOf]
  split
  · split
    · exact (w s _).then (judgeLineup_keeps _)
    · exact w s _
  · split
    · exact ((w s _).then (w _ _)).then (closeAtZero_keeps _)
    · exact w s _

theorem judgeFeedback_keeps (s : State) :
    KeepsAllBut [.direction, .lines, .inbox, .events] s (judgeFeedback s) := by
  unfold judgeFeedback
  split <;> try exact .refl _ _
  · exact judgeLineup_keeps s
  · exact judgeLineup_keeps s
  · split
    · exact enterIdle_keeps s
    · exact .refl _ _

theorem clearTripped_keeps (source : Nat) (s : State) :
    KeepsAllBut [.direction, .lines, .inbox, .events] s (clearTripped source s) := by
  exact ((withDirection_keeps s _).mono (by decide)).then (((post_keeps _ _ _).mono (by decide)).then (((enterIdle_keeps _).mono (by decide))))

theorem clearByFrame_keeps (s : State) :
    KeepsAllBut [.direction, .lines, .inbox, .events] s (clearByFrame s) := by
  unfold clearByFrame
  split
  · split
    · exact clearTripped_keeps _ s
    · exact (post_keeps _ _ s).mono (by decide)
  · exact (post_keeps _ _ s).mono (by decide)

theorem clearByLine_keeps (s : State) :
    KeepsAllBut [.direction, .lines, .inbox, .events] s (clearByLine s) := by
  unfold clearByLine
  split
  · split
    · exact clearTripped_keeps _ s
    · exact (post_keeps _ _ s).mono (by decide)
  · exact .refl _ _

theorem failLineup_keeps (f : Flow) (s : State) :
    KeepsAllBut [.direction, .lines, .inbox, .events] s (failLineup f s) := by
  have h (d : Direction) (k : EventKind) (n : Nat) : KeepsAllBut [.direction, .lines, .inbox, .events] s
      (post k n (s.withDirection d)) :=
    ((withDirection_keeps s d).mono (by decide)).then ((post_keeps _ _ _).mono (by decide))
  simp only [failLineup]
  split
  · exact (h _ _ _).then (enterRundown_keeps f _)
  · exact (h _ _ _).then (enterTripped_keeps _ _)

end Sys2Proof.Machine
end

