-- ==== Sys2Proof/Laws/Idle.lean ====
section
/-! SUPPORT. What keeps `IdleAtReset`: the station states in which it says nothing, the two entries that
establish it, and the few updates that commands make outside LISTENING and RUNNING. -/

namespace Sys2Proof.Machine

theorem IdleAtReset.of_active {t : State} (h : t.active = true) : IdleAtReset t := by
  refine ⟨fun k => absurd (h.symm.trans k) (by decide), fun k => ?_⟩
  rcases k with k | k <;> simp [State.active, k] at h

theorem IdleAtReset.of_resetPart (s : State) : IdleAtReset (resetPart s) := by
  refine ⟨fun _ => ⟨rfl, rfl, rfl, rfl, rfl, rfl, rfl, rfl, rfl, rfl, rfl, rfl, ?_, rfl, ?_, rfl, rfl⟩,
    fun _ => ⟨rfl, rfl, rfl, rfl, rfl⟩⟩
  · intro q _
    cases q <;> rfl
  · intro r hr
    obtain ⟨r0, _, rfl⟩ := List.mem_map.1 hr
    rfl

theorem IdleAtReset.of_enterDuplicate (s : State) : IdleAtReset (enterDuplicate s) := by
  refine ⟨fun _ => ⟨rfl, rfl, rfl, rfl, rfl, rfl, rfl, rfl, rfl, rfl, rfl, rfl, ?_, rfl, ?_, rfl, rfl⟩,
    fun k => ?_⟩
  · intro q _
    cases q <;> rfl
  · intro r hr
    obtain ⟨r0, _, rfl⟩ := List.mem_map.1 hr
    rfl
  · rcases k with k | k <;> cases k

/-- A pin's level may change in every station state (R4). -/
theorem IdleAtReset.setPin {s : State} (h : IdleAtReset s) (ha : s.active = false) (n : Nat) (b : Bool) :
    IdleAtReset (setPin n b s) := by
  obtain ⟨h1, h2⟩ := h
  obtain ⟨a0, a1, a2, a3, a4, a5, a6, a7, a8, a9, a10, a11, a12, a13, hr, a15, a16⟩ := h1 ha
  have hn : s.lines.lineRec n = { LineRec.reset with pinHigh := (s.lines.lineRec n).pinHigh } := by
    unfold FieldLines.lineRec
    rw [List.getD_eq_getElem?_getD]
    cases hg : s.lines.recs[n - 1]? with
    | none => rfl
    | some r => exact hr r (List.mem_of_getElem? hg)
  refine ⟨fun _ => ⟨a0, a1, a2, a3, a4, a5, a6, a7, a8, a9, a10, a11, a12, a13, ?_, a15, a16⟩, h2⟩
  intro r hmem
  rcases List.mem_or_eq_of_mem_set hmem with m | m
  · exact hr r m
  · rw [m, hn]

/-- The receiver follows the line in DUPLICATE (R36). -/
theorem IdleAtReset.setRx {s : State} (h : IdleAtReset s) (hd : s.startup.station = .duplicate)
    (x : RxState) : IdleAtReset (setRx x s) := by
  have ha : s.active = false := by simp [State.active, hd]
  obtain ⟨a0, a1, a2, a3, a4, a5, a6, a7, a8, a9, a10, a11, a12, a13, a14, a15, a16⟩ := h.1 ha
  refine ⟨fun _ => ⟨a0, a1, a2, a3, a4, a5, a6, ?_, a8, a9, a10, a11, a12, a13, a14, a15, a16⟩, fun k => ?_⟩
  · show ({ s.link with rx := x } : Link) = _
    rw [a7]
    rfl
  · rcases k with k | k <;> exact absurd (hd.symm.trans k) (by decide)

/-- The start clock runs in every station state (R193). -/
theorem IdleAtReset.withClock {s : State} (h : IdleAtReset s) (n : Nat) :
    IdleAtReset (s.withEvents { s.events with clock := n }) := by
  refine ⟨fun ha => ?_, h.2⟩
  obtain ⟨a0, a1, a2, a3, a4, a5, a6, a7, a8, a9, a10, a11, a12, a13, a14, a15, a16⟩ := h.1 ha
  refine ⟨a0, a1, a2, a3, a4, a5, a6, a7, ?_, a9, a10, a11, a12, a13, a14, a15, a16⟩
  show ({ s.events with clock := n } : Events) = _
  rw [a8]
  rfl

/-- The image read goes on in LOADING or ends in CONFIG_FAULT (R203, R206). -/
theorem IdleAtReset.withStartup {s : State} (h : IdleAtReset s) (hs : s.startup.station = .loading)
    (x : StartUp) (hl : x.listening = s.startup.listening) : IdleAtReset (s.withStartup x) := by
  have ha : s.active = false := by simp [State.active, hs]
  obtain ⟨a0, a1, a2, a3, a4, a5, a6, a7, a8, a9, a10, a11, a12, a13, a14, a15, a16⟩ := h.1 ha
  exact ⟨fun _ => ⟨hl.trans a0, a1, a2, a3, a4, a5, a6, a7, a8, a9, a10, a11, a12, a13, a14, a15, a16⟩,
    fun _ => h.2 (.inl hs)⟩

end Sys2Proof.Machine
end

