-- ==== Sys2Proof/Laws/Pins.lean ====
section
/-! SUPPORT. What each pin of R211 shows. -/

namespace Sys2Proof.Machine

theorem readyPin_iff (s : State) :
    readyPin s = true ↔ s.startup.station = .listening ∨ s.startup.station = .running := by
  unfold readyPin State.active
  cases s.startup.station <;> decide

theorem selectPin_low (s : State) (n : Nat) :
    selectPin s n = false ↔ assertedSelect s.scanner = some n := by simp [selectPin]

theorem byteBits_length (b : Byte) : (byteBits b).length = 8 := rfl

/-- The bits of bytes sent one after another: eight each. -/
theorem flatMap_byteBits_length (bs : List Byte) : (bs.flatMap byteBits).length = 8 * bs.length := by
  induction bs with
  | nil => rfl
  | cons b bs ih =>
    rw [List.flatMap_cons, List.length_append, ih, byteBits_length, List.length_cons]
    omega

/-- Bit `k` of byte `j` is sent in bit time `8 * j + k`, the most significant bit first. -/
theorem flatMap_byteBits_get (bs : List Byte) (j k : Nat) (b : Byte) (hb : bs[j]? = some b) (hk : k < 8) :
    (bs.flatMap byteBits)[8 * j + k]? = some (b.getLsbD (7 - k)) := by
  induction bs generalizing j with
  | nil => cases hb
  | cons c cs ih =>
    cases j with
    | zero =>
      cases hb
      rw [List.flatMap_cons, List.getElem?_append_left (by rw [byteBits_length]; omega), Nat.mul_zero,
        Nat.zero_add]
      interval_cases k <;> rfl
    | succ j =>
      rw [List.flatMap_cons, List.getElem?_append_right (by rw [byteBits_length]; omega), byteBits_length,
        show 8 * (j + 1) + k - 8 = 8 * j + k by omega]
      exact ih j (by simpa using hb)

theorem sdoPin_bit {s : State} {j k : Nat} {b : Byte} (hb : (clockedOut s)[j]? = some b) (hk : k < 8) :
    sdoPin s (8 * j + k) = some (b.getLsbD (7 - k)) := flatMap_byteBits_get _ j k b hb hk

theorem sdoPin_after {s : State} {i : Nat} (h : 8 * (clockedOut s).length ≤ i) : sdoPin s i = none := by
  rw [sdoPin, List.getElem?_eq_none]
  rw [flatMap_byteBits_length]
  exact h

@[simp] theorem linkLevel_eq (bit : Bool) : linkLevel bit = bit := by cases bit <;> rfl

theorem ltxPin_silent {s : State} (h : s.link.sending = none) (i : Nat) : ltxPin s i = true := by
  simp [ltxPin, h]

theorem ltxPin_sending {s : State} {bytes : List Byte} (h : s.link.sending = some bytes) (i : Nat) :
    ltxPin s i = (lineBits bytes).getD i true := by simp [ltxPin, h]

end Sys2Proof.Machine
end

