-- ==== Sys2Proof/Laws/Settle.lean ====
section
/-! SUPPORT. What METER_INTERVAL takes before its expiry (`settle`): nothing where nothing waits, the same
whether or not an increment has just been taken, and afterwards nothing waits. -/

namespace Sys2Proof.Machine

@[simp] theorem allocated_metered (v : Int) (wet : Bool) (a : Accounts) :
    (allocated v wet a).metered = a.metered := by
  unfold allocated Accounts.setTable
  cases a.openT <;> rfl

@[simp] theorem allocated_fuel (v : Int) (wet : Bool) (a : Accounts) :
    (allocated v wet a).fuel = a.fuel := by
  unfold allocated Accounts.setTable
  cases a.openT <;> rfl

@[simp] theorem charged_metered (f : Nat) (a : Accounts) : (charged f a).metered = a.metered := by
  unfold charged Accounts.setTable
  cases a.openT <;> rfl

@[simp] theorem charged_fuel (f : Nat) (a : Accounts) : (charged f a).fuel = a.fuel := by
  unfold charged Accounts.setTable
  cases a.openT <;> rfl

/-- No allocation reads or changes what waits. -/
theorem allocated_withMetered (v : Int) (wet : Bool) (a : Accounts) (l : List Int) :
    { allocated v wet a with metered := l } = allocated v wet { a with metered := l } := by
  unfold allocated siteTarget Accounts.openTable Accounts.table Accounts.setTable
  cases a.openT <;> simp

/-- No charge reads or changes what waits. -/
theorem charged_withFuel (f : Nat) (a : Accounts) (l : List Nat) :
    { charged f a with fuel := l } = charged f { a with fuel := l } := by
  unfold charged positiveSum Accounts.openTable Accounts.table Accounts.setTable
  cases a.openT <;> simp

/-- What every allocation keeps, `settleMetered` keeps. -/
theorem settleMetered_induct (p : Accounts → Prop) (s : State) (h0 : p { s.accounts with metered := [] })
    (h : ∀ a v, p a → p (allocated v s.dryer.offSpec a)) : p (settleMetered s).accounts := by
  show p (s.accounts.metered.foldl _ _)
  generalize { s.accounts with metered := [] } = a at h0
  induction s.accounts.metered generalizing a with
  | nil => exact h0
  | cons v rest ih => exact ih _ (h a v h0)

/-- What every charge keeps, `settleFuel` keeps. -/
theorem settleFuel_induct (p : Accounts → Prop) (s : State) (h0 : p { s.accounts with fuel := [] })
    (h : ∀ a f, p a → p (charged f a)) : p (settleFuel s).accounts := by
  show p (s.accounts.fuel.foldl _ _)
  generalize { s.accounts with fuel := [] } = a at h0
  induction s.accounts.fuel generalizing a with
  | nil => exact h0
  | cons f rest ih => exact ih _ (h a f h0)

theorem settleMetered_nothing {s : State} (h : s.accounts.metered = []) : settleMetered s = s := by
  obtain ⟨⟩ := s
  rename_i a _ _ _
  obtain ⟨⟩ := a
  subst h
  rfl

theorem settleFuel_nothing {s : State} (h : s.accounts.fuel = []) : settleFuel s = s := by
  obtain ⟨⟩ := s
  rename_i a _ _ _
  obtain ⟨⟩ := a
  subst h
  rfl

theorem takeEntries_nothing {s : State} (h : s.inbox.meterEntries = []) : takeEntries s = s := by
  simp [takeEntries, h]

/-- With nothing waiting an expiry takes nothing. -/
theorem settle_nothing {s : State} (he : s.inbox.meterEntries = []) (hm : s.accounts.metered = [])
    (hf : s.accounts.fuel = []) : settle s = s := by
  rw [settle, takeEntries_nothing he, settleMetered_nothing hm, settleFuel_nothing hf]

/-- It makes no difference whether the oldest metered increment was taken before. -/
theorem settleMetered_takeMetered (s : State) : settleMetered (takeMetered s) = settleMetered s := by
  unfold takeMetered
  apply whenActive_keeps (fun t => settleMetered t = settleMetered s) s _ rfl
  intro _
  cases h : s.accounts.metered with
  | nil => rfl
  | cons v rest =>
    unfold settleMetered
    simp only [State.withAccounts_accounts, State.withAccounts_dryer, allocated_metered, h,
      List.foldl_cons, allocated_withMetered]
    rfl

/-- It makes no difference whether the oldest fuel increment was taken before. -/
theorem settleFuel_takeFuel (s : State) : settleFuel (takeFuel s) = settleFuel s := by
  unfold takeFuel
  apply whenActive_keeps (fun t => settleFuel t = settleFuel s) s _ rfl
  intro _
  cases h : s.accounts.fuel with
  | nil => rfl
  | cons f rest =>
    unfold settleFuel
    simp only [State.withAccounts_accounts, charged_fuel, h, List.foldl_cons, charged_withFuel]
    rfl

/-- Afterwards nothing waits. -/
theorem settle_waits (s : State) :
    (settle s).inbox.meterEntries = [] ∧ (settle s).accounts.metered = [] ∧
    (settle s).accounts.fuel = [] := by
  refine ⟨?_, ?_, ?_⟩
  · show (takeEntries s).inbox.meterEntries = []
    unfold takeEntries
    split
    · assumption
    · rfl
  · apply settleFuel_induct (fun a => a.metered = []) (settleMetered (takeEntries s))
    · exact settleMetered_induct (fun a => a.metered = []) (takeEntries s) rfl (by simp)
    · simp
  · exact settleFuel_induct (fun a => a.fuel = []) (settleMetered (takeEntries s)) rfl (by simp)

/-- The frame of `settle`. -/
theorem settle_keeps (s : State) : KeepsAllBut [.meter, .accounts, .inbox] s (settle s) := by
  have he : KeepsAllBut [.meter, .accounts, .inbox] s (takeEntries s) := by
    unfold takeEntries
    split
    · exact .refl _ _
    · exact ((withInbox_keeps s _).mono (by decide)).then ((withMeter_keeps _ _).mono (by decide))
  exact (he.then ((withAccounts_keeps _ _).mono (by decide))).then
    ((withAccounts_keeps _ _).mono (by decide))

end Sys2Proof.Machine
end

