-- ==== Sys2Proof/Tests/Slice0.lean ====
section
/-! SUPPORT. The model's own tests: each ill-formed command that the check refuses, the spec's worked cases,
and for each obligation with hypotheses a concrete state and operands that meet them. -/

open Sys2Proof Sys2Proof.Machine

namespace Sys2Proof.Tests

set_option maxRecDepth 8000
set_option Elab.async false

/-! ### Well-formedness: what the check refuses, and the nearest it takes -/

theorem test_wf_refuses_lines_outside_1_to_24 :
    (Instr.senseLevelChange 0 true).wf = false ∧
    (Instr.senseLevelChange 25 true).wf = false ∧
    (Instr.stabilityTimerExpiry 0).wf = false ∧
    (Instr.stabilityTimerExpiry 25).wf = false ∧
    (Instr.countPulse 0 true).wf = false ∧
    (Instr.countPulse 25 false).wf = false ∧
    (Instr.senseLevelChange 1 true).wf = true ∧
    (Instr.countPulse 24 false).wf = true := by decide

theorem test_wf_refuses_peers_outside_1_to_32 :
    (Instr.silenceTimerExpiry 0).wf = false ∧
    (Instr.silenceTimerExpiry 33).wf = false ∧
    (Instr.silenceTimerExpiry 32).wf = true := by decide

theorem test_wf_refuses_image_bodies_of_no_length :
    (Instr.configImageRead (List.replicate 60 0#8)).wf = false ∧
    (Instr.configImageRead (List.replicate 4094 0#8)).wf = false ∧
    (Instr.configImageRead (List.replicate 61 0#8)).wf = true ∧
    (Instr.configImageRead (List.replicate 4093 0#8)).wf = true := by decide +kernel

theorem test_wf_refuses_replies_not_of_3_or_4_bytes :
    (Instr.readTransactionEnd [1#8, 2#8]).wf = false ∧
    (Instr.readTransactionEnd [1#8, 2#8, 3#8, 4#8, 5#8]).wf = false ∧
    (Instr.readTransactionEnd [1#8, 2#8, 3#8]).wf = true := by decide

theorem test_wf_refuses_bits_after_the_ten :
    (Instr.arbitrationLoss 10).wf = false ∧
    (Instr.arbitrationLoss 9).wf = true := by decide

theorem test_wf_refuses_frames_not_of_their_length :
    (Instr.frameReceive []).wf = false ∧
    (Instr.frameReceive [0x6C#8]).wf = false ∧
    (Instr.frameReceive [0x6C#8, 0x01#8, 0x01#8]).wf = false ∧
    (Instr.frameReceive ([0x6C#8, 0x19#8] ++ List.replicate 26 0#8)).wf = false ∧
    (Instr.frameReceive [0x6C#8, 0x01#8, 0x01#8, 0x2D#8]).wf = true := by decide

theorem test_wf_refuses_long_headers_of_24_or_less :
    (Instr.headerLengthAbove24 0#8 24#8).wf = false ∧
    (Instr.headerLengthAbove24 0#8 25#8).wf = true := by decide

/-! ### A configuration image -/

/-- Bytes from numbers. -/
def bytes (ns : List Nat) : List Byte := ns.map (BitVec.ofNat 8)

def stationBytes : List Byte :=
  bytes [1, 0, 46, 2, 3, 232, 2, 0, 78, 32, 1, 76, 8, 1, 56, 128, 1, 144, 5, 170, 0, 14, 230, 178,
    128, 5, 0, 40, 0, 50, 0, 160, 0, 25, 8, 0, 19, 136, 1, 134, 160, 0, 30, 0, 60, 0, 150, 0, 60]

def addressBytes : List Byte :=
  bytes [2, 0, 1, 7]

def terminalBytes : List Byte :=
  bytes [3, 0, 3, 2, 48, 49]

def curveBytes : List Byte :=
  bytes [4, 0, 53, 2, 3, 232, 0, 234, 96, 4, 76, 1, 56, 128, 2, 3, 232, 1, 115, 24, 5, 20, 0, 238,
    72, 2, 0, 0, 64, 1, 17, 112, 0, 0, 128, 0, 187, 128, 2, 4, 76, 3, 147, 5, 20, 3, 127, 2, 11,
    184, 0, 100, 12, 128, 0, 150]

def compressorBytes : List Byte :=
  bytes [5, 0, 21, 0, 60, 0, 120, 2, 88, 1, 44, 1, 0, 7, 208, 0, 7, 211, 60, 44, 0, 30, 0, 120]

def dryerBytes : List Byte :=
  bytes [6, 0, 15, 3, 13, 64, 1, 95, 144, 0, 60, 0, 60, 17, 148, 255, 176, 20]

def periodBytes : List Byte :=
  bytes [7, 0, 2, 15, 30]

def lineBytes : List Byte :=
  bytes [8, 0, 73, 20, 1, 2, 1, 2, 2, 2, 3, 3, 1, 4, 5, 1, 5, 5, 1, 6, 5, 1, 7, 5, 1, 8, 4, 1, 9, 4,
    1, 10, 4, 1, 11, 4, 1, 12, 4, 1, 13, 1, 2, 14, 1, 2, 15, 1, 1, 16, 1, 1, 17, 1, 1, 18, 1, 1, 19,
    1, 1, 20, 1, 1, 21, 1, 1, 22, 1, 1, 23, 4, 1, 23, 1, 1]

def slotBytes : List Byte :=
  bytes [9, 0, 112, 0, 16, 1, 0, 1, 17, 0, 0, 0, 5, 2, 33, 34, 0, 0, 3, 128, 128, 0, 64, 0, 0, 3,
    232, 1, 1, 1, 18, 0, 0, 0, 5, 1, 35, 0, 0, 0, 3, 0, 0, 4, 0, 0, 0, 11, 184, 1, 2, 4, 19, 20, 21,
    22, 5, 1, 36, 0, 0, 0, 4, 0, 0, 4, 0, 0, 0, 2, 188, 1, 3, 1, 21, 0, 0, 0, 100, 1, 37, 0, 0, 0,
    3, 0, 0, 0, 51, 0, 0, 255, 56, 1, 3, 1, 22, 0, 0, 0, 5, 1, 38, 0, 0, 0, 3, 0, 0, 4, 0, 0, 0, 11,
    184]

/-- The image after its header: nine records and the CRC. -/
def imageBody : List Byte :=
  stationBytes ++ addressBytes ++ terminalBytes ++ curveBytes ++ compressorBytes ++
  dryerBytes ++ periodBytes ++ lineBytes ++ slotBytes ++ bytes [245, 227]

/-- The whole image: 358 bytes, format 1. -/
def imageBytes : List Byte := bytes [1, 102, 1] ++ imageBody

/-- A line of the test image. -/
def line (r : Role) (m : LineMode) (p : Polarity) : LineCfg := { role := r, mode := m, polarity := p }

def testLines : List LineCfg :=
  [line .meterPulse .count .activeHigh, line .fuelPulse .count .activeLow,
   line .demandOut .pwm .activeHigh, line .whvCmd .ppDrive .activeHigh,
   line .injvCmd .ppDrive .activeHigh, line .wdvCmd .ppDrive .activeHigh] ++
  [line .tripOut .ppDrive .activeHigh, line .u1RunCmd .odDrive .activeHigh,
   line .u2RunCmd .odDrive .activeHigh, line .twrACmd .odDrive .activeHigh,
   line .twrBCmd .odDrive .activeHigh, line .heaterCmd .odDrive .activeHigh] ++
  [line .whvOpenFb .sense .activeLow, line .whvClosedFb .sense .activeLow,
   line .injvFb .sense .activeHigh, line .wdvFb .sense .activeHigh,
   line .estopIn .sense .activeHigh, line .clearIn .sense .activeHigh] ++
  [line .u1RunFb .sense .activeHigh, line .u2RunFb .sense .activeHigh,
   line .u1FaultIn .sense .activeHigh, line .u2FaultIn .sense .activeHigh,
   line .spare .odDrive .activeHigh, line .spare .sense .activeHigh]

/-- A fitted scan slot with replies of 3 bytes and offset 0. -/
def slot (select : Nat) (start : List Byte) (wait : Nat) (read : List Byte) (status : Nat)
    (gain fallback : Int) : SlotCfg :=
  { fitted := true, select := select, startRequest := start, conversionWait := wait, readRequest := read,
    replyLength := 3, statusMask := BitVec.ofNat 8 status, statusMatch := BitVec.ofNat 8 status,
    gain := gain, offset := 0, fallback := fallback }

/-- What the bytes say. -/
def testImage : Image :=
  { station :=
      { shareCycle := 2, deadband := 1000, trimShift := 2, fmin := 20000, winj := 85000,
        wwd := 80000, pmin := 400, pmax := 1450, baseInventory := 250000000, historyInterval := 5,
        riseLimit := 40, fallLimit := 50, lpp := 160, fuelPerPulse := 25, alpha := 8,
        deltaMax := 5000, rfull := 100000, holdTime := 30, settleTime := 60, lineupTimeout := 150,
        closeTimeout := 60 }
    ownAddress := 7, terminals := [48, 49]
    curves :=
      { wd := ⟨[(1000, 60000), (1100, 80000)]⟩, inj := ⟨[(1000, 95000), (1300, 61000)]⟩,
        unit := ⟨[(64, 70000), (128, 48000)]⟩, zc := ⟨[(1100, 915), (1300, 895)]⟩,
        water := ⟨[(3000, 100), (3200, 150)]⟩ }
    compressor :=
      { startTimeout := 60, cooldown := 120, minRun := 600, minStop := 300, faultMode := .latched,
        hours1 := 2000, hours2 := 2003, startThreshold := 60, stopThreshold := 44,
        startDwell := 30, stopDwell := 120 }
    dryer :=
      { lmax := 200000, dmax := 90000, heatTime := 60, coolTime := 60, regenTarget := 4500,
        dewLimit := -80, dewHysteresis := 20 }
    periodMinutes := 15, grace := 30, debounce := 20, clockDivide := 16
    lines := testLines
    slots :=
      { wellP := slot 0 (bytes [17]) 5 (bytes [33, 34]) 128 64 1000
        wellT := slot 1 (bytes [18]) 5 (bytes [35]) 0 1024 3000
        lineP := { slot 2 (bytes [19, 20, 21, 22]) 5 (bytes [36]) 0 1024 700 with replyLength := 4 }
        dewOut := slot 3 (bytes [21]) 100 (bytes [37]) 0 51 (-200)
        regenT := slot 3 (bytes [22]) 5 (bytes [38]) 0 1024 3000 } }

theorem test_image_of_the_bytes_passes :
    checkImage imageBytes = some testImage := by decide +kernel

theorem test_image_with_a_wrong_crc_fails :
    checkImage (imageBytes.set 40 0xFF#8) = none := by decide +kernel

/-! ### States -/

/-- The next state, where there is one. -/
def next? (o : Host.Outcome State Fault Refusal) : Option State :=
  match o with
  | .next t => some t
  | .fault _ => none
  | .refused _ => none

/-- The state after a command; where there is none, the state before it. -/
def after (c : Instr) (s : State) : State := (next? (exec c s)).getD s

/-- In LOADING, the header taken. -/
def loading : State :=
  { State.reset with
    startup := { StartUp.reset with
      held := false, csel := true, memoryOut := bytes [3, 0, 0], load := .body 1#8 0x66#8 1#8 } }

/-- LISTENING, from the test image. -/
def listening : State := enterListening testImage 0xF5E3#16 loading

/-- A quantity GOOD at a value. -/
def good (v : Int) : QtyRec := { value := v, state := .good, fails := 0, lastGood := some v }

/-- RUNNING, the entry taken by both its takers, WELL_P at 120.0 bar, WELL_T at 308.1 K. -/
def running : State :=
  let s := after .listeningTimerExpiry listening
  { s with
    inbox := Inbox.empty
    scanner := { s.scanner with
      quantities :=
        { wellP := good 1200, wellT := good 3081, lineP := good 700, dewOut := good (-150)
          regenT := good 4600 } } }

def duplicate : State := enterDuplicate listening

/-- A quantity's record replaced. -/
def setQ (q : Qty) (r : QtyRec) (s : State) : State :=
  s.withScanner { s.scanner with quantities := setQty s.scanner.quantities q r }

/-- The debounced level of a role's line. -/
def setLevel (r : Role) (b : Bool) (s : State) : State :=
  match lineOf? s.cfg r with
  | some n => s.withLines (s.lines.setRec n { s.lines.lineRec n with debounced := b })
  | none => s

/-- A line's record replaced. -/
def setLine (n : Nat) (f : LineRec → LineRec) (s : State) : State :=
  s.withLines (s.lines.setRec n (f (s.lines.lineRec n)))

/-- One frame waits, from terminal 48. -/
def frame (b : RxBody) (s : State) : State :=
  s.withLink { s.link with buffers := [{ sender := 48, dup := false, body := b }] }

/-- One line change waits. -/
def change (r : Role) (b : Bool) (s : State) : State :=
  s.withInbox { s.inbox with lineChanges := [(r, b)] }

def dir (f : Direction → Direction) (s : State) : State := s.withDirection (f s.direction)
def comp (f : Compressor → Compressor) (s : State) : State := s.withCompressor (f s.compressor)
def dry (f : Dryer → Dryer) (s : State) : State := s.withDryer (f s.dryer)
def acct (f : Accounts → Accounts) (s : State) : State := s.withAccounts (f s.accounts)
def link (f : Link → Link) (s : State) : State := s.withLink (f s.link)
def inbox (f : Inbox → Inbox) (s : State) : State := s.withInbox (f s.inbox)
def image (f : Image → Image) (s : State) : State :=
  s.withStartup { s.startup with image := f s.startup.image }

/-- A direction state. -/
def inState (st : DirState) (s : State) : State := dir (fun d => { d with state := st }) s

/-- A frame of the transmit queue. -/
def tx (k : TxKind) (p : List Byte) (n : Nat) : TxFrame :=
  { kind := k, payload := p, collisions := n, backoff := false }

/-- A shipper account with both rights at `w`. -/
def shipper (code : Nat) (w : Nat) (l : Option Nat) : AccRec :=
  { AccRec.blank with present := true, code := code, injRight := w, wdRight := w, link := l }

/-- The accounts of the worked case of allocation: 101, 202 and 303 nominated; 117 behind 101. -/
def store : Accounts :=
  { Accounts.reset with
    recs := [(Accounts.reset.acc 0), shipper 101 200000 (some 4), shipper 202 200000 none,
      shipper 303 200000 none, shipper 117 200000 none] ++ List.replicate 44 AccRec.blank
    buckets := ((Accounts.reset.buckets.set 5 (some 1)).set 10 (some 2)).set 15 (some 3)
    stack := (List.range 44).map (fun i => i + 5)
    p0 := [Entry.blank, { Entry.blank with nomination := some 150000 },
      { Entry.blank with nomination := some (-50000) },
      { Entry.blank with nomination := some 20000 }] ++ List.replicate 45 Entry.blank
    sync := .marked, openSeq := 812, closedSeq := 811, period := .running 600000 }

def stocked : State := acct (fun _ => store) running

/-- WELL_P at 104.3 bar: a unit's capacity is 59,344 Sm³/h. -/
def run1043 : State := setQ .wellP (good 1043) running

/-! ### The spec's worked cases -/

/-- The CRC of a CLEAR (chapter 2): 0x2D; and the frame is accepted. -/
theorem test_crc_of_a_clear :
    crc8 [0x6C#8, 0x01#8, 0x01#8] = 0x2D#8 ∧ frameBytes 6 48 [1#8] = [0x6C#8, 0x01#8, 0x01#8, 0x2D#8] ∧
    acceptFrame testImage [0x6C#8, 0x01#8, 0x01#8, 0x2D#8] =
      some { sender := 48, dup := false, body := .clear .trip } := by decide +kernel

/-- A falling segment truncates toward zero (chapter 4); the unit capacity (chapter 5). -/
theorem test_curves :
    curveAt testImage.curves.inj 1043 = 90127 ∧ curveAt testImage.curves.zc 1200 = 905 ∧
    unitCapacity run1043 = 59344 ∧ cAvail run1043 = 118688 ∧ cRun run1043 = 0 := by decide +kernel

/-- Scaling by floor (chapter 1): −3,001 × 51 / 1024 is −150; 19,200 × 64 / 1024 is 1,200. -/
theorem test_scaling :
    judgeReply .dewOut testImage.slots.dewOut [0#8, 0xF4#8, 0x47#8] = some (-150) ∧
    judgeReply .wellP testImage.slots.wellP [0x80#8, 0x4B#8, 0x00#8] = some 1200 ∧
    judgeReply .wellP testImage.slots.wellP [0x00#8, 0x4B#8, 0x00#8] = none := by decide +kernel

/-- The transmitter that drops out (chapter 1). -/
theorem test_quantity_drops_out :
    let r1 := updateQty (good 1200) none
    let r2 := updateQty r1 none
    let r3 := updateQty r2 none
    (r1.state, r1.fails, r1.value) = (.held, 1, 1200) ∧ (r2.state, r2.fails) = (.held, 2) ∧
    (r3.state, r3.fails, r3.lastGood) = (.failed, 3, some 1200) ∧ updateQty r3 (some 1198) = good 1198 := by
  decide +kernel

/-- The first two meter intervals (chapter 4): 25,064 and 25,065 litres, residues 706 and 388. -/
theorem test_meter_intervals :
    let s := setLine 2 (fun r => { r with count := 12 })
      (setLine 1 (fun r => { r with count := 20 }) (inState .inject running))
    let t := after .meterInterval s
    let u := after .meterInterval (setLine 1 (fun r => { r with count := 20 }) t)
    (t.meter.residue, t.meter.net, t.meter.flow, t.meter.fuelTotal) = (706, 25064, 90230, 300) ∧
    (u.meter.residue, u.meter.net, u.meter.flow) = (388, 50129, 90234) ∧
    t.accounts.metered = [25064] ∧ t.accounts.fuel = [300] ∧
    (u.accounts.metered, u.accounts.fuel) = ([25065], []) ∧
    ((u.accounts.acc 0).net, (u.accounts.acc 0).fuel) = (25064, 300) ∧ (t.lines.lineRec 1).count = 0 ∧
    t.inbox.dryerIncrements = [] := by decide +kernel

/-- Unexpected flow in IDLE is reported once (chapter 4). -/
theorem test_unexpected_flow :
    let one := setLine 1 (fun r => { r with count := 1 })
    let t := after .meterInterval (one running)
    let u := after .meterInterval (one t)
    t.events.queue = [{ kind := .meterUnexpected, detail := 1, seconds := 0 }] ∧
    u.events.queue = t.events.queue ∧ t.meter.net = 1253 := by decide +kernel

/-- An entry that comes before the expiry clears the mark for it, and the stay reports once (R68). -/
theorem test_unexpected_flow_after_an_entry :
    let one := setLine 1 (fun r => { r with count := 1 })
    let told := inbox (fun i => { i with meterEntries := [.idle] })
    let t := after .meterInterval (one (told running))
    let u := after .meterInterval (one (after .unexpectedMarkClear t))
    let again := after .meterInterval (one (told u))
    (t.events.queue.length, u.events.queue.length, again.events.queue.length) = (1, 1, 2) ∧
    t.inbox.meterEntries = [] ∧ u.meter.unexpected = true := by decide +kernel

/-- The ring of chapter 4: a rise of 41 brings the injection cap. -/
def fullRing : List Int :=
  [1102, 1104, 1108, 1110, 1113, 1115, 1118, 1120] ++ [1123, 1125, 1128, 1130, 1133, 1135, 1138, 1140]

theorem test_rate_cap :
    let s := { setQ .wellP (good 1145) running with meter := { running.meter with ring := fullRing } }
    let t := after .historyTimerExpiry s
    t.meter.injCap = true ∧ t.meter.ring.length = 16 ∧
    t.events.queue = [{ kind := .pressureRate, detail := 1, seconds := 0 }] ∧
    cavernInj t = 20000 ∧ cavernInj s = 78567 := by decide +kernel

/-- The cavern limits of chapter 4. -/
theorem test_cavern_limits :
    cavernInj run1043 = 85000 ∧ cavernWd run1043 = 68600 ∧
    cavernInj (setQ .wellP (good 1450) running) = 0 ∧ cavernWd (setQ .wellP (good 1450) running) = 80000 ∧
    cavernWd (setQ .wellP (good 400) running) = 0 ∧ cavernInj (setQ .wellP (good 400) running) = 85000 := by
  decide +kernel

/-- One increment loads the ON_LINE tower (chapter 6). -/
theorem test_increment_loads :
    let s := dry (fun d => { d with a := { d.a with load := 170000000 } })
      (inbox (fun i => { i with dryerIncrements := [-25066] }) (inState .withdraw running))
    let t := after .dryerIncrementTake s
    (t.dryer.a.load, t.dryer.a.residue) = (170003007, 920) ∧ t.inbox.dryerIncrements = [] := by
  decide +kernel

/-- Own availability (chapter 7), two units OFF and one in LOCKOUT. -/
theorem test_own_availability :
    shareAInj (shareInputs run1043) = 85000 ∧
    shareAInj (shareInputs (comp (fun c => { c with u2 := { c.u2 with state := .lockout } }) run1043)) =
      59344 ∧
    shareAInj (shareInputs (inState .tripped run1043)) = 0 ∧
    shareAInj (shareInputs listening) = 0 := by decide +kernel

/-- The ramp steps (chapter 8). -/
theorem test_ramp_steps :
    moveR 8 5000 60000 66240 = 61560 ∧ moveR 8 5000 62730 66240 = 63608 ∧
    moveR 8 5000 0 66240 = 5000 ∧ moveR 8 5000 66240 0 = 61240 ∧ dutyOf 100000 63608 = 636 := by
  decide +kernel

/-- The third lineup failure trips the pad (chapter 8): LINEUP_FAIL 770, TRIP 259. -/
theorem test_third_lineup_failure :
    let s := setLevel .whvOpenFb true (comp (fun c => { c with u1 := { c.u1 with state := .running } })
      (dir (fun d => { d with state := .lineupInj, lineupFails := 2, lineupTimer := .running 150000 })
        running))
    let t := after .lineupTimerExpiry s
    t.events.queue.map (fun e => (e.kind, e.detail)) = [(.lineupFail, 770), (.trip, 259)] ∧
    t.direction.state = .tripped ∧ t.direction.cause = some .lineup ∧ t.lines.requests.tripOut = true := by
  decide +kernel

/-- Buckets and the stack (chapter 9): SETUP 101, 202, 303, 117, RETIRE 101, SETUP 405. -/
theorem test_buckets_and_stack :
    let setup := fun code s => after .setup (frame (.setup code 0 0) s)
    let s := setup 117 (setup 303 (setup 202 (setup 101 running)))
    let t := after .retire (frame (.retire 101) s)
    let u := setup 405 t
    lookup s.accounts 117 = some 4 ∧ (s.accounts.acc 1).link = some 4 ∧
    t.accounts.buckets.getD 5 none = some 4 ∧ t.accounts.stack.take 3 = [1, 5, 6] ∧
    lookup u.accounts 405 = some 1 ∧ (u.accounts.acc 4).link = some 1 ∧ lookup u.accounts 101 = none ∧
    u.accounts.stack.take 2 = [5, 6] := by decide +kernel

/-- Allocation and fuel (chapter 9). -/
theorem test_allocation :
    let t := after .accountIncrementTake (acct (fun a => { a with metered := [25066] }) stocked)
    let u := after .fuelIncrementTake (acct (fun a => { a with fuel := [300] }) stocked)
    [1, 2, 3, 0].map (fun i => (t.accounts.acc i).net) = [31332, -10444, 4177, 1] ∧
    (t.accounts.entry .p0 2).withdrawn = 10444 ∧ (t.accounts.entry .p0 1).injected = 31332 ∧
    [1, 2, 3, 0].map (fun i => (u.accounts.acc i).fuel) = [264, 0, 35, 1] := by decide +kernel

/-- The periods of chapter 9: adoption, a rotation on the next sequence, and one on the own clock. -/
theorem test_periods :
    let s := after .mark (frame (.mark 812 300) running)
    let t := after .mark (frame (.mark 813 12) (after .periodTimerExpiry s))
    let u := after .graceTimerExpiry (after .periodTimerExpiry t)
    (s.accounts.openSeq, s.accounts.sync, s.accounts.period) = (812, .marked, .running 600000) ∧
    (t.accounts.openT, t.accounts.closedT, t.accounts.cursor) = (.p1, .p0, some 0) ∧
    (u.accounts.openSeq, u.accounts.sync, u.accounts.period) = (814, .ownClock, .running 870000) ∧
    u.events.queue.map (fun e => (e.kind, e.detail)) =
      [(.periodRotate, 813), (.closeLost, 1), (.periodRotate, 814), (.periodOwnClock, 814)] := by
  decide +kernel

/-- The STATION reply (chapter 10). -/
theorem test_station_reply :
    let s := { stocked with
      direction := { running.direction with state := .inject, r := 62730 }
      share := { running.share with q := 786 }, meter := { running.meter with net := 52635 }
      compressor := { running.compressor with
        u1 := { running.compressor.u1 with runSeconds := 7212345 } } }
    inventorySm3 s = 250000052 ∧ runHours s.compressor.u1 = 2003 ∧ runHours s.compressor.u2 = 2003 ∧
    ((stationReply s).drop 2).take 3 = [0x00#8, 0xF5#8, 0x0A#8] ∧ (stationReply s).length = 23 := by
  decide +kernel

/-- The blocks' states after the image has been read (R207): LISTENING for 3 × C. -/
theorem test_listening :
    after (.configImageRead imageBody) loading = listening ∧
    listening.startup.station = .listening ∧ listening.startup.listening = .running 6000 ∧
    listening.startup.signature = 0xF5E3#16 ∧ listening.scanner.quantities.dewOut.value = -200 ∧
    listening.compressor.u2.runSeconds = 7210800 ∧ listening.dryer.b.load = 200000000 ∧
    (listening.lines.lineRec 13).stability = .running 20 ∧ readyPin listening = true := by decide +kernel

/-- The station's frames on the line: 33 bits and three sync bits for the CLEAR (R20, R210). -/
theorem test_line_bits :
    (lineBits [0x6C#8, 0x01#8, 0x01#8, 0x2D#8]).length = 36 ∧
    (arbitrationBits [0x6C#8, 0x01#8, 0x01#8, 0x2D#8]) =
      [false, true, true, false, true, true, false, false, false, false] ∧
    imageReadMicros 358 = 2896 := by decide +kernel

/-! ### What step does with the queue -/

theorem test_front_command_runs :
    next? (step running) = some running ∧
    (next? (step (running.withCommand .rampStep))).map (fun t => t.pending) = some [] ∧
    (next? (step (running.withCommand (.silenceTimerExpiry 0)))).isSome = false ∧
    decodeTableWord 8 0 = none ∧ running.withFetchWord 8 0 = running := by decide +kernel

/-! ### The hypotheses of the obligations, each clause met by a concrete state -/

/-- StepRunsTheFrontCommand, EveryCommandChangesOnlyItsBlocks. -/
theorem test_witness_steps :
    (running.withCommand .rampStep).pending = .rampStep :: [] ∧ running.pending = [] ∧
    (next? (exec .rampStep running)).isSome = true := by decide +kernel

/-- EveryWellFormedCommandRuns: both ends of the lines and of the peers. -/
theorem test_witness_well_formed :
    (Instr.senseLevelChange 1 true).wf = true ∧ (Instr.senseLevelChange 24 true).wf = true ∧
    next? (exec (.senseLevelChange 0 true) running) = none ∧
    next? (exec (.stabilityTimerExpiry 25) running) = none ∧ next? (exec (.countPulse 25 true) running) = none ∧
    next? (exec (.silenceTimerExpiry 0) running) = none ∧
    next? (exec (.silenceTimerExpiry 33) running) = none := by decide +kernel

/-- CommandsRestOutsideListeningAndRunning: the three other station states. -/
theorem test_witness_resting :
    [loading, enterConfigFault loading, duplicate].all (fun s =>
      decide (s.startup.station ≠ .listening ∧ s.startup.station ≠ .running)) = true ∧
    actsWhileInactive .mark = false ∧ Instr.mark.wf = true := by decide +kernel

/-- ResetEndHeaderClockAndEntryToRunning: the header's lengths at 63, 64, 4,096 and 4,097. -/
theorem test_witness_start_up :
    let hdr := { loading with startup := { loading.startup with load := .header } }
    State.reset.startup.held = true ∧ loading.startup.held = false ∧
    ((after .resetEnd State.reset).startup.csel = true ∧
      (after .resetEnd State.reset).startup.memoryOut = bytes [3, 0, 0]) ∧
    ((after (.configHeaderTaken 0 63 1) hdr).startup.csel = false ∧
      (after (.configHeaderTaken 0 63 1) hdr).startup.memoryOut = []) ∧
    (listening.startup.station = .listening ∧ listening.startup.listening ≠ .stopped) ∧
    (hdr.startup.station = .loading ∧ hdr.startup.load = .header) ∧
    (after (.configHeaderTaken 0 63 1) hdr).startup.station = .configFault ∧
    (after (.configHeaderTaken 0 64 1) hdr).startup.load = .body 0 64 1 ∧
    (after (.configHeaderTaken 16 0 1) hdr).startup.load = .body 16 0 1 ∧
    (after (.configHeaderTaken 16 1 1) hdr).startup.station = .configFault ∧
    (after (.configHeaderTaken 0 64 2) hdr).startup.station = .configFault := by decide +kernel

/-- ImageReadEntersListeningOrConfigFault, PassingImageMeetsTheChecks. -/
theorem test_witness_image :
    loading.startup.station = .loading ∧ loading.startup.load = .body 1#8 0x66#8 1#8 ∧
    imageBody.length + 3 = (1#8).toNat * 256 + (0x66#8).toNat ∧
    imageBytes = 1#8 :: 0x66#8 :: 1#8 :: imageBody ∧ (checkImage imageBytes).isSome = true ∧
    checkImage (1#8 :: 0x66#8 :: 1#8 :: imageBody.set 0 9#8) = none ∧
    testImage.lines[0]? = some (line .meterPulse .count .activeHigh) ∧
    loading.lines.recs[23]? = some LineRec.reset := by decide +kernel

/-- A STATUS of station 12, and the same from the own address. -/
def status12 : StatusFields := { StatusFields.zero with aInj := 85000, p := 40000, openSeq := 812 }

def twin (s : State) : State :=
  link (fun l => { l with buffers := [{ sender := 7, dup := true, body := .status status12 }] }) s

def peer (s : State) : State :=
  link (fun l => { l with buffers := [{ sender := 12, dup := false, body := .status status12 }] }) s

/-- DuplicateStatusByStationState. -/
theorem test_witness_duplicate :
    takeFrame .peerRoster (twin listening).link.buffers =
      some ({ sender := 7, dup := true, body := .status status12 }, []) ∧
    (twin listening).startup.station = .listening ∧ (twin running).startup.station = .running ∧
    (after .statusTake (twin listening)).startup.station = .duplicate := by decide +kernel

/-- The image with its lines in the other order: line 1 senses, line 24 counts. -/
def turned (s : State) : State := image (fun i => { i with lines := i.lines.reverse }) s

/-- SensedLinesAreDebouncedAndDelivered: lines 1, 24 and CLEAR_IN's. -/
theorem test_witness_sensed :
    let due := setLine 24 (fun r => { r with pinHigh := true, stability := .running 20 }) running
    running.active = true ∧
    ((lineCfg? testImage 24).map (fun c => c.mode) = some .sense ∧
      (running.lines.lineRec 24).pinHigh ≠ true) ∧
    ((lineCfg? (turned running).cfg 1).map (fun c => c.mode) = some .sense ∧
      ((turned running).lines.lineRec 1).pinHigh ≠ true) ∧
    ((due.lines.lineRec 24).stability ≠ .stopped ∧
      logical .activeHigh (due.lines.lineRec 24).pinHigh ≠ (due.lines.lineRec 24).debounced) ∧
    lineCfg? testImage 24 = some (line .spare .sense .activeHigh) ∧
    lineCfg? testImage 18 = some (line .clearIn .sense .activeHigh) ∧
    ((List.range 13).all (fun m => (lineCfg? testImage m).all (fun d => decide (d.role ≠ .whvOpenFb))) =
        true ∧
      lineCfg? testImage 13 = some (line .whvOpenFb .sense .activeLow) ∧
      (setLine 13 (fun r => { r with debounced := true }) running).level .whvOpenFb = true) := by
  decide +kernel

/-- The image with DEMAND_OUT ACTIVE_LOW. -/
def lowActive (s : State) : State :=
  image (fun i => { i with lines := i.lines.set 2 (line .demandOut .pwm .activeLow) }) s

/-- PulsesDutyAndPinsFollowTheLines: lines 1 and 24, and each mode; the PWM line at duties of 0 and 1. -/
theorem test_witness_pulses_and_pins :
    ((lineCfg? testImage 1).map (fun c => c.mode) = some .count ∧
      (running.lines.lineRec 1).pinHigh ≠ true) ∧
    ((lineCfg? (turned running).cfg 24).map (fun c => c.mode) = some .count ∧
      ((turned running).lines.lineRec 24).pinHigh ≠ true) ∧
    ((after (.countPulse 1 true) (setLine 1 (fun r => { r with count := 4095 }) running)).lines.lineRec
      1).overRange = true ∧
    loading.startup.station = .loading ∧ (enterConfigFault loading).startup.station = .configFault ∧
    duplicate.startup.station = .duplicate ∧
    (lineCfg? testImage 4).map (fun c => c.mode) = some .ppDrive ∧ pinDrive running 4 = .low ∧
    (lineCfg? testImage 10).map (fun c => c.mode) = some .odDrive ∧ pinDrive running 10 = .highZ ∧
    pinDrive duplicate 10 = .low ∧ pinDrive running 1 = .input ∧ pinDrive loading 10 = .highZ ∧
    (lineCfg? testImage 3).map (fun c => c.mode) = some .pwm ∧ pinDrive running 3 = .low ∧
    pinDrive duplicate 3 = .low ∧
    (let s := after .pwmPeriodStart (dir (fun d => { d with duty := 1 }) running)
     pinDrive s 3 = .pulseHigh 1 ∧ pinDrive (lowActive s) 3 = .pulseLow 1) ∧
    pinDrive (lowActive running) 3 = .high := by decide +kernel

/-- A pass in the slot `q`, in a phase. -/
def inPass (q : Qty) (ph : ScanPhase) (skipped : Bool) (s : State) : State :=
  s.withScanner { s.scanner with pass := some { slot := q, phase := ph, skipped := skipped } }

def anyTransaction : Transaction := { select := 0, bytesOut := [], micros := 16 }

/-- PulsesDutyAndPinsFollowTheLines: READY in each station state; each select, asserted and released; LTX in
the start bit, a recessive bit, a sync bit, after the frame and with none in transmission. -/
theorem test_witness_pins :
    [loading, enterConfigFault loading, listening, running, duplicate].map readyPin =
      [false, false, true, true, false] ∧
    (let work := fun ph => (List.range 4).map (selectPin (inPass .lineP ph false running))
     work (.starting { anyTransaction with select := 3 }) = [true, true, true, false] ∧
     work (.reading anyTransaction) = [false, true, true, true] ∧
     work (.waiting 5) = [true, true, true, true]) ∧
    (List.range 4).map (selectPin running) = [true, true, true, true] ∧
    cselPin loading = false ∧ cselPin running = true ∧ cselPin State.reset = true ∧
    (let sent := running.withLink { running.link with sending := some [0x70#8, 0x47#8] }
     (List.range 20).map (ltxPin sent) =
       [false, false, true, true, true, false, false, false, false, false, false, true, false, false,
        false, true, true, true, true, true]) ∧
    (List.range 3).map (ltxPin running) = [true, true, true] := by decide +kernel

/-- PulsesDutyAndPinsFollowTheLines: SDO and SCK at the first and last bits of a sensor transaction and of the
memory read's request, header and image, past them, and with nothing under way. -/
theorem test_witness_wires :
    (let s := inPass .lineP (.starting { anyTransaction with bytesOut := bytes [0x81, 0x06] }) false running
     (List.range 17).map (sdoPin s) =
       [1, 0, 0, 0, 0, 0, 0, 1, 0, 0, 0, 0, 0, 1, 1, 0].map (fun b => some (decide (b = 1))) ++ [none] ∧
     (sckPeriod s 0, sckPeriod s 15, sckPeriod s 16) =
       (some testImage.clockDivide, some testImage.clockDivide, none)) ∧
    (sdoPin running 0, sckPeriod running 0) = (none, none) ∧
    (let s := inPass .lineP (.waiting 5) false running
     (sdoPin s 0, sckPeriod s 0) = (none, none)) ∧
    (let s := after .resetEnd State.reset
     (List.range 9).map (sdoPin s) = [0, 0, 0, 0, 0, 0, 1, 1, 0].map (fun b => some (decide (b = 1))) ∧
     (sdoPin s 23, sdoPin s 24) = (some false, none) ∧
     (sckPeriod s 0, sckPeriod s 47, sckPeriod s 48) = (some 8, some 8, none)) ∧
    (sckPeriod loading (8 * (3 + 0x166) - 1), sckPeriod loading (8 * (3 + 0x166))) = (some 8, none) ∧
    (let s := enterConfigFault loading
     (sdoPin s 0, sckPeriod s 0) = (none, none)) := by decide +kernel

/-- ScanPassGoesSlotBySlot. -/
theorem test_witness_scan :
    (running.scanner.timer ≠ .stopped ∧ running.scanner.pass = none ∧
      running.cfg.slots.wellP.fitted = true) ∧
    (inPass .lineP (.waiting 5) false running).scanner.timer ≠ .stopped ∧
    (after .scanTimerExpiry (inPass .lineP (.waiting 5) false running)).events.queue =
      [{ kind := .scanOverrun, detail := 3, seconds := 0 }] ∧
    (inPass .lineP (.waiting 5) true running).scanner.pass =
      some { slot := .lineP, phase := .waiting 5, skipped := true } ∧
    (inPass .dewOut (.starting anyTransaction) true running).scanner.pass =
      some { slot := .dewOut, phase := .starting anyTransaction, skipped := true } ∧
    (after .conversionWaitExpiry (inPass .wellP (.waiting 5) false running)).scanner.pass =
      some { slot := .wellP, skipped := false,
             phase := .reading { select := 0, bytesOut := bytes [33, 34, 0, 0, 0], micros := 96 } } := by
  decide +kernel

/-- ReadEndJudgesAndUpdatesTheQuantity: a good reply, a failed one at each count, the last slot. -/
theorem test_witness_read_end :
    let s := inPass .dewOut (.reading anyTransaction) false running
    let l := inPass .lineP (.reading anyTransaction) false running
    let r := inPass .regenT (.reading anyTransaction) false running
    judgeReply .dewOut (getQty s.cfg.slots .dewOut) (bytes [0, 0xF4, 0x47]) = some (-150) ∧
    judgeReply .dewOut (getQty s.cfg.slots .dewOut) (bytes [0, 0x80, 0]) = none ∧
    (bytes [0, 0xF4, 0x47]).length = (getQty s.cfg.slots .dewOut).replyLength ∧
    (bytes [0, 2, 0, 9]).length = (getQty l.cfg.slots .lineP).replyLength ∧
    ((s.qty .dewOut).fails + 1 < 3 ∧ (s.qty .dewOut).state = .good) ∧
    ((listening.qty .dewOut).fails + 1 < 3 ∧ (listening.qty .dewOut).state = .none) ∧
    3 ≤ ((setQ .dewOut { good 0 with state := .held, fails := 2 } s).qty .dewOut).fails + 1 ∧
    (after (.readTransactionEnd (bytes [0, 0xF4, 0x47])) s).inbox.dewUpdates = [(.good, -150)] ∧
    (after (.readTransactionEnd (bytes [0, 0x0B, 0xB8])) r).scanner.pass = none ∧
    (image (fun i => { i with slots := { i.slots with
      regenT := { i.slots.regenT with fitted := false } } }) s).cfg.slots.regenT.fitted = false := by
  decide +kernel

/-- A head frame in transmission with another behind it. -/
def sending (f : TxFrame) (h : Option (List Byte)) (s : State) : State :=
  link (fun l => { l with
    queue := [f, tx .event (bytes [1, 0, 1, 0, 0, 0, 0]) 0], hold := h
    sending := some (frameBytes (txKindCode f.kind) 7 f.payload) }) s

def statusBytes : List Byte := statusPayload status12

/-- HeadFrameStartsAndLeaves: both runs of the line, a held STATUS and none. -/
theorem test_witness_head_frame :
    let s := link (fun l => { l with queue := [tx .status statusBytes 0] }) running
    let b := link (fun l => { l with queue := [{ tx .status statusBytes 1 with backoff := true }] }) running
    (s.link.sending = none ∧ s.link.rx = .waiting) ∧
    (after (.linkTxStart 10) s).link.sending = none ∧ (after (.linkTxStart 11) s).link.sending ≠ none ∧
    (after (.linkTxStart 66) b).link.sending = none ∧ (after (.linkTxStart 67) b).link.sending ≠ none ∧
    ((after .frameSent (sending (tx .status statusBytes 0) (some statusBytes) running)).link.queue.map
      (fun f => f.kind)) = [.event, .status] ∧
    (sending (tx .report [] 0) none running).link.hold = none := by decide +kernel

/-- LostSendsKeepOrDiscardTheHeadFrame: the first and the last bit, the 15th and the 16th collision. -/
theorem test_witness_lost_sends :
    let st := sending (tx .status statusBytes 14) (some statusBytes) running
    let last := sending (tx .status statusBytes 15) (some statusBytes) running
    let rep := sending (tx .report (bytes [5, 0, 0, 0, 0]) 15) none running
    (arbitrationBits (frameBytes 7 7 statusBytes))[9]? = some true ∧
    (arbitrationBits (frameBytes 9 7 (bytes [5, 0, 0, 0, 0])))[0]? = some true ∧
    (after (.arbitrationLoss 9) st).link.sending = none ∧
    (after (.arbitrationLoss 0) rep).link.sending = none ∧
    (after .collision st).link.queue.map (fun f => f.collisions) = [0, 0] ∧
    (after .collision last).link.queue.map (fun f => f.kind) = [.event, .status] ∧
    (after .collision rep).events.queue = [{ kind := .linkTxFail, detail := 9, seconds := 0 }] ∧
    (sending (tx .status statusBytes 14) none running).link.hold = none := by decide +kernel

def clearFrame : List Byte := [0x6C#8, 0x01#8, 0x01#8, 0x2D#8]

def taking (s : State) : State := link (fun l => { l with rx := .taking }) s

/-- ReceiverTakesPlacesAndDiscards. -/
theorem test_witness_receiver :
    (running.link.rx = .waiting ∧ running.link.sending = none) ∧
    (taking running).link.rx = .taking ∧ acceptFrame running.cfg [0x6C#8, 0x01#8, 0x01#8, 0x2C#8] = none ∧
    (after (.frameReceive clearFrame) (taking running)).link.buffers.length = 1 ∧
    (after (.frameReceive clearFrame) (taking (link (fun l => { l with
      buffers := List.replicate 2 { sender := 48, dup := false, body := .clear .trip } })
      running))).link.overrun = true ∧
    (taking duplicate).link.rx = .taking ∧
    (after .frameBrokenOff (taking running)).link.rx = .waiting ∧
    (after (.headerLengthAbove24 0x6C 25) (taking running)).link.rx = .waiting := by decide +kernel

/-- AcceptedFramesPassTheFrameChecks, StatusSentIsTheStatusReceived: stations 1, 32 and the own 7, fields at
their limits. -/
theorem test_witness_frames :
    let f : StatusFields := { status12 with
      aInj := 2 ^ 24 - 1, aWd := 2 ^ 24 - 1, p := 2 ^ 24 - 1, flow := -(2 ^ 23) }
    (acceptFrame testImage clearFrame).isSome = true ∧ 48 ∈ testImage.terminals ∧
    ((0x80#8 ++ 0x00#8 ++ 0x01#8).toInt ≠ -8388608) ∧
    acceptFrame testImage (frameBytes 7 1 (statusPayload f)) =
      some { sender := 1, dup := false, body := .status f } ∧
    acceptFrame testImage (frameBytes 7 32 (statusPayload { f with flow := 2 ^ 23 - 1 })) =
      some { sender := 32, dup := false, body := .status { f with flow := 2 ^ 23 - 1 } } ∧
    acceptFrame testImage (frameBytes 7 7 (statusPayload f)) =
      some { sender := 7, dup := true, body := .status f } := by decide +kernel

/-- What testImage's station makes of a payload from terminal 48. -/
def received (kind : Nat) (payload : List Nat) : Option RxBody :=
  (acceptFrame testImage (frameBytes kind 48 (bytes payload))).map (fun f => f.body)

/-- AcceptedFramesPassTheFrameChecks: each terminal kind at the ends of its fields, and the values on both
sides of each that is discarded. -/
theorem test_witness_terminal_frames :
    [received 1 [255, 254, 0, 60], received 2 [0, 1, 0, 2, 128, 0, 1], received 2 [0, 1, 0, 2, 128, 0, 0],
      received 3 [0, 5, 0x1E, 0x84, 0x80, 0, 0, 0], received 3 [0, 5, 0x1E, 0x84, 0x81, 0, 0, 0],
      received 3 [0, 5, 0, 0, 0, 0x1E, 0x84, 0x81],
      received 4 [0, 5, 255, 255, 255, 255, 255, 254], received 5 [1, 0],
      received 6 [0], received 6 [1], received 6 [5], received 6 [6]] =
    [some (.mark 0xFFFE#16 60), some (.nominate 1#16 2 (-8388607)), none,
      some (.setup 5 2000000 0), none, none,
      some (.balance 5 (-2)), some (.retire 256),
      none, some (.clear .trip), some (.clear (.tower .b)), none] := by decide +kernel

theorem test_witness_query_frames :
    [received 8 [0, 1, 1, 1], received 8 [1, 2, 3, 9], received 8 [2, 0, 0, 9], received 8 [2, 3, 1, 0],
      received 8 [2, 4, 0, 9], received 8 [3, 200, 7, 7], received 8 [4, 5, 7, 7], received 8 [5, 7, 7, 7],
      received 8 [6, 7, 7, 7], received 8 [7, 7, 7, 7], received 9 [], received 10 [1]] =
    [none, some (.query (.account 515)), none, some (.query (.entry .closedRole 256)),
      none, some (.query (.peer 200)), some (.query (.quantity 5)), some (.query .lines),
      some (.query .station), none, none, none] := by decide +kernel

/-- One waiting event. -/
def anEvent : EventRec := { kind := .trip, detail := 259, seconds := 5 }

/-- OfferedFramesEnterTheQueue: queues of 6 and 7, each feeder alone and both. -/
theorem test_witness_offers :
    let q := fun n s => link (fun l => { l with queue := List.replicate n (tx .report [] 0) }) s
    let e := fun (s : State) => { s with events := { s.events with queue := [anEvent] } }
    let c := fun s => acct (fun a => { a with cursor := some 0, reporting := true }) s
    let st := tx .status statusBytes 3
    (sending st none running).link.sending ≠ none ∧
    (∀ g ∈ [tx .report [] 0], g.kind ≠ .status) ∧ (∀ g ∈ (q 6 running).link.queue, g.kind ≠ .status) ∧
    ((q 6 (e running)).link.queue.length ≤ 6 ∧ (q 6 (e running)).accounts.cursor = none) ∧
    6 < (q 7 (e running)).link.queue.length ∧
    ((c (e running)).link.mark = .cursor ∧ (c (e running)).accounts.cursor ≠ none) ∧
    (c (e (link (fun l => { l with mark := .eventQueue }) running))).link.mark = .eventQueue ∧
    (after .eventAdmission (q 6 (e running))).link.queue.length = 7 ∧
    (after .closingReportAdmission (c stocked)).accounts.cursor = none ∧
    (after .closingReportAdmission (c (acct (fun a => a.setEntry .p2 48
      { Entry.blank with nomination := some 1 }) stocked))).accounts.cursor = some 48 ∧
    (∀ k < 1, 0 < k → qualifies (store.table .p2) k = false) := by decide +kernel

/-- PostAppendsOrDropsWithEventsLost: 9 records and 10. -/
theorem test_witness_post :
    let full := { running with events := { running.events with queue := List.replicate 10 anEvent } }
    let nine := { running with events := { running.events with queue := List.replicate 9 anEvent } }
    nine.events.queue.length < 10 ∧ 10 ≤ full.events.queue.length ∧ loading.active = false ∧
    (post .trip 1 nine).events.queue.length = 10 ∧ (post .trip 1 full).events.lost = true := by
  decide +kernel

/-- A peer's record. -/
def withPeer (n : Nat) (st : PeerState) (s : State) : State :=
  s.withRoster (s.roster.set (n - 1)
    { state := st, last := status12, silence := .running 6000, disagree := false })

/-- PeersAreFiledJudgedAndAged: addresses 1 and 32, FRESH and STALE, a disagreement. -/
theorem test_witness_peers :
    takeFrame .peerRoster (peer running).link.buffers =
      some ({ sender := 12, dup := false, body := .status status12 }, []) ∧
    (peerRec (withPeer 1 .fresh running).roster 1).state = .fresh ∧
    (peerRec (withPeer 1 .fresh running).roster 1).silence ≠ .stopped ∧
    (peerRec (withPeer 32 .stale running).roster 32).state = .stale ∧
    (after (.silenceTimerExpiry 32) (withPeer 32 .stale running)).events.queue =
      [{ kind := .peerLost, detail := 32, seconds := 0 }] ∧
    (after .statusTake (peer (acct (fun a => { a with openSeq := 813 }) stocked))).events.queue.map
      (fun e => e.kind) = [.peerNew, .configMismatch, .periodDisagree] := by decide +kernel

/-- MeterIntervalFormsTheIncrements, HistoryJudgesBothCaps: 14, 15 and 16 samples. -/
theorem test_witness_meter :
    let withRing := fun r (s : State) => { s with meter := { s.meter with ring := r } }
    (running.meter.interval ≠ .stopped ∧ lineOf? running.cfg .meterPulse = some 1 ∧
      lineOf? running.cfg .fuelPulse = some 2) ∧
    running.inbox.meterEntries = [] ∧ running.accounts.metered = [] ∧ running.accounts.fuel = [] ∧
    running.meter.history ≠ .stopped ∧ running.usable .wellP = some 1200 ∧
    (setQ .wellP { good 1 with state := .failed } running).usable .wellP = none ∧
    (withRing (fullRing.take 14) running).meter.ring.length < 15 ∧
    ((fullRing.drop 2).length = 14 ∧
      (withRing fullRing running).meter.ring = 1102 :: 1104 :: fullRing.drop 2 ∧
      (withRing (fullRing.drop 1) running).meter.ring = 1104 :: fullRing.drop 2) ∧
    (after .historyTimerExpiry (withRing fullRing running)).meter.ring.length = 16 ∧
    (after .historyTimerExpiry (withRing (fullRing.drop 1) running)).meter.ring.length = 16 ∧
    (inbox (fun i => { i with meterEntries := [.idle] }) running).inbox.meterEntries = .idle :: [] := by
  decide +kernel

/-- AvailabilitiesFollowCurvesCapsAndTaper: both ends of a curve and between them, each state of WELL_P and of
LINE_P, the taper at 3/4 and just below. -/
theorem test_witness_availabilities :
    let at_ := fun n => (dry (fun d => { d with a := { d.a with load := n }, offSpec := false }) running).dryer
    (testImage.curves.inj.points = [(1000, 95000)] ++ [(1300, 61000)] ∧
      testImage.curves.inj.points.Pairwise (fun a b => a.1 < b.1)) ∧
    [1000, 1001, 1299, 1300].map (curveAt testImage.curves.inj) = [95000, 94887, 61114, 61000] ∧
    (unitCapacity (setQ .lineP { good 700 with state := .failed } run1043) = 0 ∧
      unitCapacity (setQ .lineP { good 700 with state := .held } run1043) = 59344) ∧
    (setQ .wellP { good 1 with state := .none } running |>.qty .wellP).state = .none ∧
    (setQ .wellP { good 1 with state := .held } running |>.qty .wellP).state = .held ∧
    (running.qty .wellP).state = .good ∧
    ((running.dryer.tower .a).state = .onLine ∧ (running.dryer.tower (otherTower .a)).state ≠ .onLine) ∧
    dAvail testImage.dryer (at_ 149999999) = 90000 ∧ dAvail testImage.dryer (at_ 150000000) = 90000 ∧
    dAvail testImage.dryer (at_ 175000000) = 45000 ∧ dAvail testImage.dryer (at_ 200000001) = 0 ∧
    taperApplies testImage.dryer (at_ 149999999) = false ∧
    taperApplies testImage.dryer (at_ 150000000) = true := by decide +kernel

/-- A unit in a state, its timers running. -/
def unitIn (u : UnitId) (st : UnitState) (s : State) : State :=
  comp (fun c => c.setUnit u { c.unit u with
    state := st, stateTimer := .running 60000, runClock := .running 1000, minRun := .running 600000
    minStop := .running 300000, minStopMark := false }) s

def clearUnit (u : UnitId) (s : State) : State := frame (.clear (.unit u)) s

/-- UnitTimersTimeoutAndClear. -/
theorem test_witness_unit_timers :
    let r := unitIn .two .running running
    let o := unitIn .one .off running
    let t := unitIn .one .starting running
    ((r.unit .two).runClock ≠ .stopped ∧ (r.unit .two).minRun ≠ .stopped) ∧
    ((o.unit .one).minStop ≠ .stopped ∧ o.level .u1FaultIn = false) ∧
    ((unitIn .one .cooldown running).unit .one).state = .cooldown ∧
    ((t.unit .one).state = .starting ∧ (t.unit .one).stateTimer ≠ .stopped) ∧
    (comp (fun c => { c with startDwell := .running 30000 }) running).compressor.startDwell ≠ .stopped ∧
    (comp (fun c => { c with stopDwell := .running 120000 }) running).compressor.stopDwell ≠ .stopped ∧
    (after (.startTimeoutExpiry .one) (comp (fun c => { c with u1 := { c.u1 with fails := 1 } })
      t)).events.queue.map (fun e => (e.kind, e.detail)) = [(.unitStartFail, 1), (.unitLockout, 257)] ∧
    (takeFrame .compressorDuty (clearUnit .two running).link.buffers).isSome = true ∧
    (after .clearUnit (clearUnit .two (setLevel .u2FaultIn true (unitIn .two .lockout
      running)))).events.queue.map (fun e => e.detail) = [515] := by decide +kernel

/-- A lineup is requested. -/
def lining (s : State) : State := comp (fun c => { c with lineup := true }) s

/-- UnitChangesAndTrainRequests: both units ready, one, none; unit 1 has the fewer run seconds. -/
theorem test_witness_unit_changes :
    running.level .u1RunFb = false ∧
    ((setLevel .u1RunFb true running).level .u1RunFb = true ∧
      ((startRequest .one (setLevel .u1RunFb true running)).unit .one).state = .running ∧
      (startRequest .one (setLevel .u1RunFb true running)).lines.requests.u1Run = true) ∧
    ((lining running).compressor.lineup = true ∧
      onDuty (lining running).compressor.u1.state = false ∧
      onDuty (lining running).compressor.u2.state = false) ∧
    (eligible (lining running) .one = true ∧ eligible (lining running) .two = true ∧
      (lining running).compressor.u1.passedOver = false) ∧
    eligible (setLevel .u1FaultIn true (lining running)) .one = false ∧
    eligible (setLevel .u2FaultIn true (lining running)) .two = false ∧
    ((leadChoice (lining running)).unit .one).state = .starting ∧
    ((leadChoice (setLevel .u1FaultIn true (lining running))).unit .two).state = .starting ∧
    running.compressor.lineup = false ∧ running.compressor.trainDir ≠ .inject := by decide +kernel

/-- FeedbacksAndFaultsActByUnitState: each change, with the unit in a state that acts. -/
theorem test_witness_feedbacks :
    let s := fun st r b => change r b (unitIn .two st running)
    takeChange (runFbRole .two) (s .starting .u2RunFb true).inbox.lineChanges = some (true, []) ∧
    takeChange (runFbRole .two) (s .running .u2RunFb false).inbox.lineChanges = some (false, []) ∧
    takeChange (faultRole .two) (s .running .u2FaultIn true).inbox.lineChanges = some (true, []) ∧
    takeChange (faultRole .two) (s .off .u2FaultIn false).inbox.lineChanges = some (false, []) ∧
    ((after (.runFeedbackAssertion .two) (s .starting .u2RunFb true)).unit .two).state = .running ∧
    (after (.faultInputAssertion .two) (s .running .u2FaultIn true)).events.queue.map
      (fun e => (e.kind, e.detail)) = [(.unitTrip, 514), (.unitLockout, 514)] ∧
    (after (.runFeedbackRelease .two) (image (fun i => { i with
      compressor := { i.compressor with faultMode := .report } })
      (s .running .u2RunFb false))).events.queue.map (fun e => e.detail) = [258] := by decide +kernel

/-- A direction state waits for the train. -/
def toTrain (st : DirState) (s : State) : State :=
  inbox (fun i => { i with dirChanges := [(st, .inj)] }) s

/-- TrainFollowsTheDirectionState. -/
theorem test_witness_train :
    (toTrain .lineupInj running).inbox.dirChanges = (.lineupInj, .inj) :: [] ∧
    ((after .trainDirectionChange (toTrain .lineupInj running)).unit .one).state = .starting ∧
    (toTrain .rundown (lining running)).compressor.lineup = true ∧
    (toTrain .withdraw running).compressor.lineup = false ∧
    ((after .trainDirectionChange (toTrain .rundown (lining (unitIn .one .starting
      running)))).unit .one).state = .off ∧
    ((after .trainDirectionChange (toTrain .idle (unitIn .one .running running))).unit .one).state =
      .cooldown ∧
    (after .trainDirectionChange (toTrain .inject running)).compressor.trainDir = .inject := by
  decide +kernel

/-- Unit 1 RUNNING alone, or both with 2 the lag unit, and a setpoint. -/
def train (both : Bool) (p : Nat) (f : Compressor → Compressor) (s : State) : State :=
  let c := s.compressor
  { s with
    share := { s.share with lastP := p }
    compressor := f { c with
      trainDir := .inject, u1 := { c.u1 with state := .running }
      u2 := if both then { c.u2 with state := .running, lag := true, minRunMark := true } else c.u2 } }

/-- DwellsFollowTheStartAndStopConditions: P at the start point 55,635 and above it, at the stop point
40,799 and below it; no eligible unit, a unit STARTING, both eligible with a tie and without; a lag unit
short of its minimum run. -/
theorem test_witness_dwells :
    let a := train false 55636 (fun c => { c with startMark := true }) run1043
    let b := train true 40798 (fun c => { c with stopMark := true }) run1043
    let none_ := setLevel .u2FaultIn true a
    let short := comp (fun c => { c with u2 := { c.u2 with minRunMark := false } }) b
    let both := comp (fun c => { c with u1 := { c.u1 with state := .off } }) a
    let tie := comp (fun c => { c with u2 := { c.u2 with runSeconds := c.u1.runSeconds } }) both
    let two := comp (fun c => { c with u2 := { c.u2 with runSeconds := 0 } }) both
    (judgeOnce none_ = none_ ∧ none_.compressor.startMark = true) ∧
    (let s := comp (fun c => { c with u2 := { c.u2 with state := .starting } }) a
     (judgeOnce s).compressor.startMark = true) ∧
    (judgeOnce short = short ∧ short.compressor.stopMark = true) ∧
    ((both.compressor.u1.runSeconds < both.compressor.u2.runSeconds) ∧
      ((judgeOnce both).unit .one).state = .starting ∧ ((judgeOnce tie).unit .one).state = .starting ∧
      ((judgeOnce two).unit .two).state = .starting) ∧
    (a.compressor.trainDir = .inject ∧ judgeDuty a = judgeOnce (judgeOnce a)) ∧
    startCondition (train false 55635 id run1043) = false ∧ startCondition a = true ∧
    stopCondition (train true 40799 id run1043) = false ∧ stopCondition b = true ∧
    stopCondition (train false 0 id run1043) = false ∧
    (a.compressor.startMark = true ∧ eligible a .two = true ∧ eligible a (otherUnit .two) = false ∧
      a.compressor.u1.state ≠ .starting ∧ stopCondition a = false) ∧
    (b.compressor.stopMark = true ∧ startCondition b = false ∧ (b.unit .two).lag = true ∧
      (b.unit .one).lag = false ∧ (b.unit .two).minRunMark = true) ∧
    ((judgeOnce a).unit .two).state = .starting ∧ ((judgeOnce b).unit .two).state = .cooldown ∧
    (judgeOnce (train false 55636 id run1043)).compressor.startDwell = .running 30000 := by
  decide +kernel

/-- IncrementLoadsTheOnLineTower, SwitchAndHandOver: the load at 15/16 and just below; HOLD with a free
heater. -/
theorem test_witness_switch :
    let sb := fun n o => dry (fun d => { d with
      a := { d.a with load := n }, b := { d.b with state := .standby }, offSpec := o }) running
    let inc := inbox (fun i => { i with dryerIncrements := [-1000] })
    (inc (inState .withdraw running)).inbox.dryerIncrements = -1000 :: [] ∧
    (inc (inState .inject running)).direction.state ≠ .withdraw ∧
    (dir (fun d => { d with state := .rundown, remembered := .wd }) running).direction.remembered = .wd ∧
    ((sb 187500000 false).dryer.tower .a).state = .onLine ∧
    ((sb 187500000 false).dryer.tower .b).state = .standby ∧
    (judgeSwitch (sb 187500000 false)).events.queue.map (fun e => e.detail) = [258] ∧
    (judgeSwitch (sb 187500000 true)).events.queue.map (fun e => e.detail) = [770] ∧
    (judgeSwitch (sb 0 true)).events.queue.map (fun e => e.detail) = [514] ∧
    (16 * ((sb 187499999 false).dryer.tower .a).load < (15 * 200000 * 1000 : Nat)) ∧
    judgeSwitch (sb 187499999 false) = sb 187499999 false ∧
    ((running.dryer.tower .b).state = .hold ∧ running.dryer.heater = none) ∧
    (handOver running).dryer.heater = some .b ∧ listening.startup.station ≠ .running := by decide +kernel

/-- Tower B in a regeneration state. -/
def regenerating (st : TowerState) (mark : Bool) (h : Option Tower) (s : State) : State :=
  dry (fun d => { d with b := { d.b with state := st, regen := .running 3600000, halfMark := mark }
                         heater := h }) s

/-- RegenerationClearAndEntryToRunning: the temperature at the target and just below it. -/
theorem test_witness_regeneration :
    let h := regenerating .heating false (some .b) running
    let c := regenerating .cooling false none running
    let f := regenerating .faulted false none (frame (.clear (.tower .b)) running)
    ((h.dryer.tower (otherTower .b)).state = .onLine ∧ (h.dryer.tower .b).regen ≠ .stopped ∧
      (h.dryer.tower .b).state = .heating ∧ h.dryer.heater = some .b) ∧
    (setQ .regenT (good 4500) h).usable .regenT = some 4500 ∧
    (after (.halfHeatPoint .b) (setQ .regenT (good 4500) h)).events.queue = [] ∧
    (after (.halfHeatPoint .b) (setQ .regenT (good 4499) h)).events.queue.map (fun e => e.detail) = [514] ∧
    (after (.halfHeatPoint .b) (setQ .regenT { good 1 with state := .failed } h)).events.queue.map
      (fun e => e.detail) = [258] ∧
    (image (fun i => { i with slots := { i.slots with
      regenT := { i.slots.regenT with fitted := false } } }) h).cfg.slots.regenT.fitted = false ∧
    ((regenerating .heating true (some .b) running).dryer.tower .b).halfMark = true ∧
    ((c.dryer.tower .b).state = .cooling ∧ c.dryer.heater = none) ∧
    takeFrame .dryerUnit f.link.buffers =
      some ({ sender := 48, dup := false, body := .clear (.tower .b) }, []) ∧
    (f.dryer.tower .b).state = .faulted ∧ ((after .clearTower f).dryer.tower .b).state = .heating ∧
    (after .clearTower (frame (.clear (.tower .b)) c)).events.queue.map (fun e => e.detail) = [261] ∧
    (inbox (fun i => { i with runningToDryer := true }) running).inbox.runningToDryer = true := by
  decide +kernel

/-- A dew update waits. -/
def dew (st : QState) (v : Int) (s : State) : State :=
  inbox (fun i => { i with dewUpdates := [(st, v)] }) s

/-- DewJudgementSetsAndClearsOffSpec: the limit −80 and the limit less the hysteresis, −100, each from both
sides. -/
theorem test_witness_dew :
    let runs := fun a b o => dry (fun d => { d with above := a, below := b, offSpec := o }) running
    let dews := fun st v s => (after .dewOutUpdate (dew st v s)).dryer
    (dew .good (-79) running).inbox.dewUpdates = (.good, -79) :: [] ∧
    ((dews .good (-79) (runs 2 0 false)).above = 3 ∧ (dews .good (-79) (runs 2 0 false)).offSpec = true) ∧
    (dews .good (-79) (runs 1 0 false)).offSpec = false ∧
    ((dews .good (-80) (runs 2 2 true)).above = 0 ∧ (dews .good (-80) (runs 2 2 true)).below = 0) ∧
    (dews .good (-99) (runs 0 2 true)).offSpec = true ∧ (dews .good (-100) (runs 0 2 true)).offSpec = false ∧
    (dews .held (-100) (runs 0 2 true)).below = 0 ∧ (dews .failed (-100) (runs 0 0 false)).offSpec = true ∧
    (dews .none (-100) (runs 0 0 true)).above = 0 := by decide +kernel

/-- What the share computation reads, for a target, a direction state and one peer. -/
def reading (t : Int) (st : DirState) (q own : Int) : ShareIn :=
  { target := t, cavernInj := 85000, cavernWd := 68600, cAvail := 118688, dAvail := 90000
    peers := [{ StatusFields.zero with aInj := 55000, aWd := 40000, flow := 30000 }], ownFlow := own
    dirState := st, running := true, q := q }

/-- ShareCycleStoresDeliversAndAnnounces, AnnouncedFieldsReportTheirOwners, ShareStagesFollowTheRules: the
deadband's both ends, a site at and above |T|, the bounds of R136 to R138 and their neighbours. -/
theorem test_witness_share :
    running.share.timer ≠ .stopped ∧ Accounts.reset.sync = .unsynced ∧ store.sync ≠ .unsynced ∧
    siteTarget store = 120000 ∧
    [shareDir 1000 1000, shareDir 1000 999, shareDir 1000 (-999), shareDir 1000 (-1000)] =
      [.inj, .hold, .hold, .wd] ∧
    [baseShare 5 0 0, baseShare 140000 85000 140000, baseShare 120000 85000 140000] = [0, 85000, 72857] ∧
    [heldWithin 10 11, heldWithin 10 (-11), heldWithin 10 10, heldWithin 10 (-10)] = [10, -10, 10, -10] ∧
    [backCalculate 100 90 11, backCalculate 100 90 10, backCalculate 100 9 (-9),
      backCalculate 100 9 (-10)] = [(100, 10), (100, 10), (0, -9), (0, -9)] ∧
    [minFlow 20 30 10, minFlow 20 30 9, minFlow 20 19 15, minFlow 20 30 20, minFlow 20 30 0] =
      [20, 0, 0, 20, 0] ∧
    trimStep 2 85000 140000 (-1000) = -151 ∧
    (trimApplies .inj .inject 1 = true ∧ trimApplies .inj .inject 0 = false ∧
      trimApplies .wd .inject 1 = false ∧ trimApplies .wd .withdraw 1 = true) := by decide +kernel

/-- SetpointStaysWithinOwnAvailability: a step, a HOLD, a cycle with the trim and one without. -/
theorem test_witness_setpoint :
    let c := testImage.station
    (running.share.lastP ≤ max running.share.lastAInj running.share.lastAWd ∧
      (next? (step (running.withCommand .shareCycle))).isSome = true) ∧
    (shareCompute c (reading 999 .idle 0 0)).d = .hold ∧
    (let i := reading 120000 .inject 500 60000
     trimApplies (shareCompute c i).d i.dirState (siteAvail (shareCompute c i).d i) = true ∧
     (shareCompute c i).p ≠ 0) ∧
    (let i := reading 120000 .idle 500 0
     trimApplies (shareCompute c i).d i.dirState (siteAvail (shareCompute c i).d i) = false ∧
     (shareCompute c i).p = 72857) := by decide +kernel

/-- The Share Engine wants a direction. -/
def wanting (d : Dir) (p : Nat) (s : State) : State :=
  dir (fun x => { x with heldD := d, heldP := p }) s

/-- EntriesSetLinesTimersAndNeighbours, LineupsOpenCompleteAndFlow. -/
theorem test_witness_entries :
    (dir (fun d => { d with r := 1 }) running).direction.r ≠ 0 ∧ running.direction.r = 0 ∧
    whvClosed (setLevel .whvClosedFb true running) = true ∧
    ((wanting .inj 1 running).direction.state = .idle ∧ (wanting .inj 1 running).direction.heldD = .inj) ∧
    (judgeExit (wanting .inj 1 running)).direction.state = .lineupInj ∧
    judgeExit (wanting .inj 0 running) = wanting .inj 0 running ∧
    (judgeExit (wanting .wd 1 running)).direction.state = .lineupWd ∧
    (wanting .hold 1 running).direction.heldD = .hold ∧
    (let s := setLevel .injvFb true (setLevel .whvOpenFb true (unitIn .two .running
       (inState .lineupInj running)))
     s.direction.state = .lineupInj ∧ (judgeLineup s).direction.state = .inject) ∧
    (let s := setLevel .wdvFb true (setLevel .whvOpenFb true (inState .lineupWd running))
     s.direction.state = .lineupWd ∧ (judgeLineup s).direction.state = .withdraw) := by decide +kernel

/-- A delivery waits. -/
def delivered (p : Nat) (d : Dir) (s : State) : State :=
  inbox (fun i => { i with deliveries := [(p, d)] }) s

/-- DeliveryIsJudgedByDirectionState: each state, a reversal, a HOLD and a P of 0. -/
theorem test_witness_delivery :
    (delivered 1 .inj running).inbox.deliveries = (1, .inj) :: [] ∧
    [DirState.idle, .lineupInj, .lineupWd, .inject, .withdraw, .rundown, .tripped].map (fun st =>
      (after .shareDelivery (delivered 0 .wd (inState st running))).direction.state) =
      [.idle, .rundown, .lineupWd, .rundown, .withdraw, .rundown, .tripped] ∧
    (after .shareDelivery (delivered 0 .wd (inState .withdraw running))).direction.holdTimer =
      .running 30000 ∧
    (after .shareDelivery (delivered 9 .hold (inState .inject running))).direction.holdTimer =
      .running 30000 ∧
    (after .shareDelivery (delivered 9 .inj (inState .inject running))).direction.holdTimer = .stopped := by
  decide +kernel

/-- A notice waits. -/
def noticed (e : Bool) (c : Nat) (s : State) : State :=
  inbox (fun i => { i with notices := [{ entered := e, cRun := c }] }) s

/-- NoticeReplacesHeldCrunAndLowersR: C_run one below R and at it. -/
theorem test_witness_notice :
    let at_ := fun st => dir (fun d => { d with state := st, r := 55000 }) running
    (noticed true 5 (at_ .lineupInj)).inbox.notices = { entered := true, cRun := 5 } :: [] ∧
    (at_ .inject).direction.state ≠ .lineupInj ∧
    (after .compressorNotice (noticed false 54999 (at_ .inject))).direction.r = 54999 ∧
    (after .compressorNotice (noticed false 55000 (at_ .inject))).direction.r = 55000 ∧
    (after .compressorNotice (noticed false 0 (at_ .withdraw))).direction.r = 55000 ∧
    (after .compressorNotice (noticed false 0 (at_ .rundown))).direction.phase = .close := by decide +kernel

/-- RampStepMovesRTowardItsTarget: each of the three states; α and Δmax at 1, α at 32. -/
theorem test_witness_ramp :
    let at_ := fun st r => dir (fun d => { d with
      state := st, r := r, heldP := 66240, rampTimer := .running 250 }) running
    ((at_ .inject 60000).direction.rampTimer ≠ .stopped ∧ (at_ .inject 60000).direction.state = .inject) ∧
    (after .rampStep (at_ .inject 60000)).direction.r = 0 ∧
    (after .rampStep (at_ .withdraw 60000)).direction.r = 61560 ∧
    (after .rampStep (at_ .withdraw 66240)).direction.r = 66240 ∧
    (after .rampStep (dir (fun d => { d with remembered := .wd }) (at_ .rundown 1))).direction.phase =
      .close ∧
    moveR 1 1 5 6 = 6 ∧ moveR 32 500000 5 9 = 9 ∧ moveR 32 3 9 5 = 6 := by decide +kernel

/-- FeedbackSettleAndEntryAreJudgementPoints. -/
theorem test_witness_judgement_points :
    let s := fun st ph => dir (fun d => { d with state := st, phase := ph }) (change .whvClosedFb true running)
    takeChange (valveRole .whvClosed) (s .lineupWd .ramp).inbox.lineChanges = some (true, []) ∧
    ((s .rundown .close).direction.state = .rundown ∧ (s .rundown .close).direction.phase = .close) ∧
    (after (.valveFeedbackChange .whvClosed) (setLevel .whvClosedFb true (s .rundown .close))).direction.state =
      .idle ∧
    ((s .rundown .ramp).direction.phase = .ramp ∧ (s .tripped .ramp).direction.state = .tripped) ∧
    (dir (fun d => { d with settle := .running 60000 }) running).direction.settle ≠ .stopped ∧
    (inbox (fun i => { i with runningToDirection := true }) running).inbox.runningToDirection = true := by
  decide +kernel

/-- EmergencyStopTripsAndClearsAreJudged: each refusal and the clear, by frame and by line. -/
theorem test_witness_emergency :
    let fr := frame (.clear .trip)
    let tr := dir (fun d => { d with state := .tripped, cause := some .valve })
    let cl := change .clearIn true
    let closed := setLevel .whvClosedFb true
    let details := fun (s : State) => s.events.queue.map (fun e => e.detail)
    takeChange .estopIn (change .estopIn true running).inbox.lineChanges = some (true, []) ∧
    takeChange .estopIn (change .estopIn false running).inbox.lineChanges = some (false, []) ∧
    (after .estopInAssertion (change .estopIn true (inState .inject running))).direction.cause =
      some .estop ∧
    (takeFrame .directionController (fr running).link.buffers).isSome = true ∧
    details (after .clearTrip (fr running)) = [257] ∧
    details (after .clearTrip (fr (tr (setLevel .estopIn true running)))) = [513] ∧
    details (after .clearTrip (fr (tr running))) = [769] ∧
    details (after .clearTrip (fr (tr (closed running)))) = [258] ∧
    (after .clearInAssertion (cl running)).events.queue = [] ∧
    details (after .clearInAssertion (cl (tr (setLevel .estopIn true running)))) = [512] ∧
    details (after .clearInAssertion (cl (tr running))) = [768] ∧
    details (after .clearInAssertion (cl (tr (closed running)))) = [514] := by decide +kernel

/-- LineupHoldAndCloseTimersAct: the second failure and the third. -/
theorem test_witness_direction_timers :
    let l := fun n => dir (fun d => { d with
      state := .lineupWd, lineupFails := n, lineupTimer := .running 150000 }) running
    ((l 1).direction.state = (if Machine.Flow.wd = .inj then .lineupInj else .lineupWd) ∧
      (l 1).direction.lineupTimer ≠ .stopped) ∧
    (after .lineupTimerExpiry (l 1)).direction.state = .rundown ∧
    (after .lineupTimerExpiry (l 2)).direction.state = .tripped ∧
    (dir (fun d => { d with state := .inject, holdTimer := .running 30000 }) running).direction.holdTimer ≠
      .stopped ∧
    (dir (fun d => { d with closeTimer := .running 60000 }) running).direction.closeTimer ≠ .stopped := by
  decide +kernel

/-- SetupMakesOrChangesAnAccount: code 0, a full store, an empty bucket and a taken one, a code found. -/
theorem test_witness_setup :
    takeFrame .accountStore (frame (.setup 117 5 5) stocked).link.buffers =
      some ({ sender := 48, dup := false, body := .setup 117 5 5 }, []) ∧
    (lookup { store with stack := [] } 405 = none ∧ ({ store with stack := [] } : Accounts).stack = []) ∧
    (lookup store 405 = none ∧ store.stack.head? = some 5 ∧ store.buckets.getD (405 % 16) none = some 1) ∧
    (lookup store 1 = none ∧ store.buckets.getD (1 % 16) none = none) ∧
    (lookup store 101 = some 1 ∧ store.openT ≠ store.pendingT ∧ 1 < (store.table .p0).length) ∧
    (after .setup (frame (.setup 101 100000 5) stocked)).accounts.entry .p0 1 =
      { Entry.blank with nomination := some 100000, curtailed := true } ∧
    (after .setup (frame (.setup 405 1 1) stocked)).accounts.acc 4 =
      shipper 117 200000 (some 5) := by decide +kernel

/-- BalanceReplacesTheOpeningBalance, RetireChecksThenFreesTheAccount: each of the four checks. -/
theorem test_witness_balance_and_retire :
    let details := fun (s : State) => s.events.queue.map (fun e => e.detail)
    let r := fun c s => after .retire (frame (.retire c) s)
    (lookup store 117 = some 4 ∧ lookup store 9 = none) ∧
    ((after .balance (frame (.balance 117 (-3)) stocked)).accounts.acc 4).opening = -3 ∧
    details (after .balance (frame (.balance 0 5) stocked)) = [0] ∧
    details (r 0 stocked) = [1] ∧ details (r 101 stocked) = [2] ∧
    details (r 117 (acct (fun a => a.setEntry .p2 4 { Entry.blank with fuel := 1 }) stocked)) = [3] ∧
    details (r 117 (after .balance (frame (.balance 117 (-3)) stocked))) = [4] ∧
    (r 117 stocked).accounts.acc 4 = AccRec.blank ∧ (4 ≠ 0 ∧ 4 < store.recs.length) := by decide +kernel

/-- NominateClampsAndPlaces, MarkAdoptsRealignsOrRotates: the distances 0, 1, 2, 32,767 and 32,768. -/
theorem test_witness_nominate_and_mark :
    let n := fun q c x s => after .nominate (frame (.nominate q c x) s)
    let m := fun q => after .mark (frame (.mark q 900) stocked)
    let details := fun (s : State) => s.events.queue.map (fun e => e.detail)
    details (n 812 101 1 running) = [1] ∧ details (n 812 0 1 stocked) = [2] ∧
    details (n 814 101 1 stocked) = [3] ∧
    (n 812 101 200001 stocked).accounts.entry .p0 1 =
      { Entry.blank with nomination := some 200000, curtailed := true } ∧
    (n 813 117 (-200000) stocked).accounts.entry .p1 4 =
      { Entry.blank with nomination := some (-200000) } ∧
    (m 812).accounts.period = .running 0 ∧ (m 813).accounts.openT = .p1 ∧
    details (m 814) = [814, 1] ∧ details (m (812 + 32767)) = [812 + 32767, 32766] ∧
    (m (812 + 32768)).accounts = store ∧
    (after .mark (frame (.mark 5 0) running)).accounts.openSeq = 5 := by decide +kernel

/-- GraceExpiryRotatesOnTheOwnClock: nominations within their rights, and two beyond them. -/
theorem test_witness_rotation :
    (stocked.accounts.period ≠ .stopped) ∧
    (acct (fun a => { a with grace := .running 30000 }) stocked).accounts.grace ≠ .stopped ∧
    (after .graceTimerExpiry (acct (fun a => { a with grace := .running 30000 })
      stocked)).accounts.entry .p1 1 = { Entry.blank with nomination := some 150000 } ∧
    (let cut := acct (fun a => { a with
       p0 := (a.p0.set 1 { Entry.blank with nomination := some 200001 }).set 4
         { Entry.blank with nomination := some (-200001) } }) stocked
     (cut.accounts.reporting = true ↔ cut.accounts.cursor ≠ none) ∧
     cut.accounts.table cut.accounts.closedT = List.replicate 49 Entry.blank ∧
     (rotate 813 cut).events.queue.map (fun e => (e.kind, e.detail)) =
       [(.nomCurtailed, 101), (.nomCurtailed, 117), (.periodRotate, 813)]) := by decide +kernel

/-- IncrementsAreSharedByNomination, NoLitreGoesAstray. -/
theorem test_witness_increments :
    let v := acct (fun a => { a with metered := [-25066] }) stocked
    let f := acct (fun a => { a with fuel := [300] }) stocked
    (v.accounts.metered = -25066 :: [] ∧ f.accounts.fuel = 300 :: []) ∧
    (v.accounts.recs.length = 49 ∧ v.accounts.openTable.length = 49) ∧
    ((List.range 49).all (fun i =>
      decide (-(2 ^ 63) ≤ (v.accounts.acc i).net + (parts (-25066) (siteTarget store) store.openTable).getD i 0 ∧
        (v.accounts.acc i).net + (parts (-25066) (siteTarget store) store.openTable).getD i 0 < 2 ^ 63))) =
      true ∧
    ((List.range 49).all (fun i =>
      decide (-(2 ^ 63) ≤ (f.accounts.acc i).fuel + (charges 300 (positiveSum store) store.openTable).getD i 0 ∧
        (f.accounts.acc i).fuel + (charges 300 (positiveSum store) store.openTable).getD i 0 < 2 ^ 63))) =
      true ∧
    (next? (exec .accountIncrementTake v)).isSome = true := by decide +kernel

/-- QueriesAreAnsweredOrDropped: each selector; a queue of 6 and of 7. -/
theorem test_witness_queries :
    let ask := fun q => frame (.query q) stocked
    takeFrame .queryResponder (ask (.account 101)).link.buffers =
      some ({ sender := 48, dup := false, body := .query (.account 101) }, []) ∧
    (after .queryAccount (ask (.account 101))).link.queue.map (fun f => f.payload.length) = [24] ∧
    (after .queryEntry (ask (.entry .openRole 101))).link.queue.map (fun f => f.payload.take 7) =
      [bytes [2, 5, 0, 101, 2, 73, 240]] ∧
    (after .queryPeer (ask (.peer 32))).link.queue.map (fun f => f.payload.length) = [24] ∧
    (after .queryPeer (ask (.peer 33))).link.queue.map (fun f => f.payload.take 3) = [bytes [3, 128, 33]] ∧
    (after .queryQuantity (ask (.quantity 1))).link.queue.map (fun f => f.payload) =
      [bytes [4, 1, 1, 4, 176]] ∧
    (after .queryLines (ask .lines)).link.queue.map (fun f => f.payload) = [bytes [5, 0, 64, 64, 0]] ∧
    (after .queryStation (ask .station)).link.queue.map (fun f => f.payload.length) = [23] ∧
    (after .queryLines (link (fun l => { l with queue := List.replicate 7 (tx .report [] 0) })
      (ask .lines))).events.queue = [{ kind := .queryDropped, detail := 5, seconds := 0 }] := by
  decide +kernel

/-- StepsKeepQueuesWithinTheirPlaces: a queue at its 8 places, a step that answers. -/
theorem test_witness_link_and_events_sound :
    let s := (link (fun l => { l with
      queue := List.replicate 7 (tx .report [] 15) ++ [tx .status statusBytes 0] }) running).withCommand
      .frameSent
    (LinkSound s.link ∧ EventsSound s.events) ∧ (next? (step s)).isSome = true := by
  unfold LinkSound EventsSound
  decide +kernel

/-- StepsKeepRequestsWithTheirStates: a running pad whose requests are those of its states, and one in a
lineup. -/
theorem test_witness_requests_sound :
    let s := running.withCommand .rampStep
    (DryerSound s.dryer s.lines.requests ∧ UnitsSound s.compressor s.lines.requests ∧
      DirectionSound s.direction s.lines.requests) ∧ (next? (step s)).isSome = true ∧
    (let l := judgeExit (wanting .inj 1 running)
     l.direction.state = .lineupInj ∧ DirectionSound l.direction l.lines.requests) := by
  unfold DryerSound UnitsSound DirectionSound
  refine ⟨⟨?_, ?_, ?_⟩, ?_, ?_, ?_⟩ <;> decide +kernel

/-- StepsKeepNominationsWithinRights: the store with three nominations and two shippers in one chain. -/
theorem test_witness_accounts_sound :
    AccountsSound store ∧ chainOf store 5 = [1, 4] ∧
    (next? (step (stocked.withCommand .rampStep))).isSome = true := by
  unfold AccountsSound ChainsSound WithinRights
  repeat' apply And.intro
  all_goals decide +kernel

/-- StepsKeepTheIdlePartAtReset: LOADING after a reset, CONFIG_FAULT, DUPLICATE, and a working station. -/
theorem test_witness_idle_part :
    IdleAtReset loading ∧ IdleAtReset (enterConfigFault loading) ∧ IdleAtReset duplicate ∧
    IdleAtReset running ∧ duplicate.active = false ∧
    (next? (step (loading.withCommand .startClockTick))).isSome = true ∧
    (next? (step (duplicate.withCommand .startBitAfterIdle))).isSome = true := by
  have h : IdleAtReset loading := by
    refine ⟨fun _ => ?_, fun _ => ?_⟩
    all_goals repeat' apply And.intro
    all_goals decide +kernel
  exact ⟨h, h.withStartup rfl _ rfl, .of_enterDuplicate _, .of_active (by decide +kernel),
    by decide +kernel, by decide +kernel, by decide +kernel⟩

/-- The site of chapter 7: A_own 90,000 either way, four peers, a target and the five flows. -/
def site (t : Int) (st : DirState) (q own : Int) (flows : List Int) : ShareIn :=
  { target := t, cavernInj := 90000, cavernWd := 90000, cAvail := 90000, dAvail := 90000
    peers := List.zipWith (fun a f => { StatusFields.zero with aInj := a, aWd := a, flow := f })
      [120000, 150000, 80000, 110000] flows
    ownFlow := own, dirState := st, running := true, q := q }

/-- Chapter 7's cases: the ordinary cycle, a negative error, a target above the site, a setpoint trimmed
below zero, the minimum flow, a reversal. -/
theorem test_share_cases :
    let c := { testImage.station with deadband := 5000 }
    let pq := fun i => ((shareCompute c i).p, (shareCompute c i).q)
    pq (site 400000 .inject 500 60000 [85000, 110000, 58000, 80000]) = (66240, 786) ∧
    pq (site 400000 .inject 786 60000 [85000, 110000, 65000, 100000]) = (65422, -32) ∧
    pq (site 600000 .inject 500 88000 [118000, 148000, 78000, 108000]) = (90000, 0) ∧
    pq (site 8000 .inject (-1000) 30000 [0, 0, 0, 0]) = (0, -1309) ∧
    [130000, 120000, 62000, 60000, 30000].map (fun t => pq (site t .idle 9 0 [0, 0, 0, 0])) =
      [(21272, 0), (20000, 0), (20000, 0), (0, 0), (0, 0)] ∧
    (shareCompute c (site (-300000) .inject 786 66240 [0, 0, 0, 0])).d = .wd ∧
    pq (site (-300000) .inject 786 66240 [0, 0, 0, 0]) = (49090, 0) := by decide +kernel

/-- D_avail and DRYER_LIMIT (chapter 6). -/
theorem test_d_avail :
    let c := { testImage.dryer with dmax := 120000 }
    let d := fun n st o =>
      { running.dryer with
        a := { running.dryer.a with load := n }, b := { running.dryer.b with state := st }, offSpec := o }
    [d 120000000 .heating false, d 170000000 .cooling false, d 170000000 .standby false,
      d 170000000 .cooling true, d 155000000 .heating false, d 200000000 .hold true,
      d 210000000 .faulted false, d 0 .heating true].map (fun x => (dAvail c x, taperApplies c x)) =
      [(120000, false), (72000, true), (120000, false), (60000, true), (108000, true), (0, true),
       (0, true), (60000, false)] := by decide +kernel

/-- The flag sets and clears (chapter 6): ten updates, one after the other. -/
theorem test_dew_sequence :
    let limits := image (fun i => { i with dryer := { i.dryer with dewLimit := -100 } })
    let s := dry (fun d => { d with offSpec := false }) (limits running)
    let updates := [(QState.good, (-95 : Int)), (.good, -92), (.held, -92), (.good, -90), (.good, -88),
      (.good, -85), (.good, -110), (.good, -121), (.good, -124), (.good, -126)]
    let run := fun n => (updates.take n).foldl (fun t u => after .dewOutUpdate (dew u.1 u.2 t)) s
    [5, 6, 7, 9, 10].map (fun n =>
      ((run n).dryer.above, (run n).dryer.below, (run n).dryer.offSpec)) =
      [(2, 0, false), (3, 0, true), (0, 0, true), (0, 2, true), (0, 3, false)] ∧
    (run 10).events.queue.map (fun e => (e.kind, e.detail)) = [(.offSpecOn, 1), (.offSpecOff, 0)] := by
  decide +kernel

/-- The queue under a closing report (chapter 2): seven frames queued, both feeders waiting. -/
def reporting : State :=
  link (fun l => { l with
      queue := [tx .report [] 0, tx .report [] 0, tx .event [] 0, tx .event [] 0, tx .event [] 0,
        tx .report [] 0, tx .event [] 0] })
    (acct (fun a => { a with cursor := some 0, reporting := true })
      { running with events := { running.events with queue := [anEvent] } })

/-- The head frame sent. -/
def sent (s : State) : State := after .frameSent (after (.linkTxStart 11) s)

/-- After a share cycle and two frames sent. -/
def oneThenTwo : State := sent (sent (after .shareCycle reporting))

def kinds (s : State) : List TxKind := s.link.queue.map (fun f => f.kind)

/-- The STATUS is appended at seven, where nothing else is admitted. -/
theorem test_status_at_seven :
    kinds (after .shareCycle reporting) = kinds reporting ++ [.status] ∧
    kinds (after .eventAdmission reporting) = kinds reporting := by decide +kernel

/-- At six the feeder that the mark does not name is admitted, then the other. -/
theorem test_feeders_in_turns :
    kinds oneThenTwo = [.event, .event, .event, .report, .event, .status] ∧
    kinds (after .closingReportAdmission oneThenTwo) = kinds oneThenTwo ∧
    kinds (after .eventAdmission oneThenTwo) = kinds oneThenTwo ++ [.event] ∧
    kinds (after .closingReportAdmission (sent (after .eventAdmission oneThenTwo))) =
      [.event, .event, .report, .event, .status, .event, .report] := by decide +kernel

/-- A trip into a full queue (chapter 10): LINEUP_FAIL takes the last place, TRIP is dropped. -/
theorem test_trip_into_a_full_queue :
    let s := dir (fun d => { d with state := .lineupInj, lineupFails := 2, lineupTimer := .running 150000 })
      { running with events := { running.events with queue := List.replicate 9 anEvent } }
    let t := after .lineupTimerExpiry s
    t.events.queue.length = 10 ∧ (t.events.queue.getLastD anEvent).kind = .lineupFail ∧
    t.events.lost = true ∧ (statusFlags t).getLsbD 12 = true ∧ (statusFlags t).getLsbD 14 = true ∧
    (after .eventAdmission t).events.lost = true := by decide +kernel

/-- From start to the first withdrawal (chapter 6): B regenerated, the switch, TOWER_SWITCH 258. -/
theorem test_first_switch :
    let s := dry (fun d => { d with offSpec := false }) (after .listeningTimerExpiry listening)
    let t := after .dryerRunningEntry s
    let u := after (.coolTimeExpiry .b) (after (.heatTimeExpiry .b)
      (after (.halfHeatPoint .b) (setQ .regenT (good 4810) t)))
    (t.dryer.b.state, t.dryer.heater, t.lines.requests.heater) = (.heating, some .b, true) ∧
    (u.dryer.a.state, u.dryer.b.state, u.dryer.heater, u.dryer.b.load) =
      (.heating, .onLine, some .a, 0) ∧
    (u.lines.requests.twrA, u.lines.requests.twrB) = (false, true) ∧
    u.events.queue.map (fun e => (e.kind, e.detail)) = [(.towerSwitch, 258)] := by decide +kernel

/-- A start that fails and the other unit (chapter 5). -/
theorem test_start_that_fails :
    let s := after .trainDirectionChange
      (inbox (fun i => { i with dirChanges := [(.lineupInj, .inj)] }) running)
    let t := after (.startTimeoutExpiry .one) s
    let u := after (.runFeedbackAssertion .two) (setLevel .u2RunFb true (change .u2RunFb true t))
    (s.compressor.u1.state, s.compressor.u2.state) = (.starting, .off) ∧
    (t.compressor.u1.state, t.compressor.u2.state, t.compressor.u1.fails, t.compressor.u1.passedOver) =
      (.off, .starting, 1, true) ∧
    (u.compressor.u2.state, u.inbox.notices.map (fun n => n.cRun == cRun u)) = (.running, [true]) ∧
    u.compressor.u1.minStop = .running 300000 ∧
    u.events.queue.map (fun e => (e.kind, e.detail)) = [(.unitStartFail, 1)] := by decide +kernel

/-- A reversal (chapter 8): ten ramp steps from 66,240 leave 16,240, and 32 more bring R to 0. -/
theorem test_reversal_ramp :
    let s := { Direction.reset with state := .rundown, r := 66240 }
    let at_ := fun n => (List.range n).foldl (fun d _ => stepRec testImage.station 110000 d) s
    ((at_ 10).r, (at_ 10).duty) = (16240, 162) ∧ (at_ 41).r ≠ 0 ∧ (at_ 42).r = 0 := by decide +kernel

end Sys2Proof.Tests
end

section
/-! The frame of every command (`touches`): one lemma for each meaning that Laws/Frames.lean does not
already cover, and the table of all 78 commands. -/

namespace Sys2Proof.Machine

/-! ### Outcomes -/

/-- A command whose meaning is total keeps what its meaning keeps. -/
theorem KeepsAllBut.of_next {bs : List Block} {s t u : State} (k : KeepsAllBut bs s u)
    (h : (Host.Outcome.next u : Host.Outcome State Fault Refusal) = .next t) : KeepsAllBut bs s t := by
  cases h
  exact k

/-- A command that names a line acts as its meaning does where it answers a next state (log 23). -/
theorem onLine_next {n : Nat} {s t : State} {f : State → State} (h : onLine n s f = .next t) :
    t = f s := by
  unfold onLine at h
  split at h <;> cases h
  rfl

theorem onLine_inside {n : Nat} (s : State) (f : State → State) (h1 : 1 ≤ n) (h2 : n ≤ 24) :
    onLine n s f = .next (f s) := if_pos ⟨h1, h2⟩

theorem onLine_outside {n : Nat} (s : State) (f : State → State) (h : n = 0 ∨ 24 < n) :
    onLine n s f = .fault (.noSuchLine n) := if_neg (by omega)

theorem execSilenceTimerExpiry_next {n : Nat} {s t : State}
    (h : execSilenceTimerExpiry n s = .next t) : t = silenceExpiry n s := by
  unfold execSilenceTimerExpiry at h
  split at h <;> cases h
  rfl

/-! ### Start-up -/

/-- Every block but the queue of waiting commands may have changed. -/
theorem keepsAllBut_everyBlock {s t : State} (h : t.pending = s.pending) :
    KeepsAllBut everyBlock s t := by
  intro b hb
  cases b <;> first | exact h | exact absurd (by decide) hb

theorem resetPart_keeps (s : State) : KeepsAllBut everyBlock s (resetPart s) :=
  keepsAllBut_everyBlock rfl

theorem endReset_keeps (s : State) : KeepsAllBut [.startup, .events] s (endReset s) := by
  unfold endReset
  split
  · exact ((withStartup_keeps s _).mono (by decide)).then ((withEvents_keeps _ _).mono (by decide))
  · exact .refl _ _

theorem enterConfigFault_keeps (s : State) : KeepsAllBut [.startup] s (enterConfigFault s) :=
  withStartup_keeps s _

theorem takeHeader_keeps (b0 b1 b2 : Byte) (s : State) :
    KeepsAllBut [.startup] s (takeHeader b0 b1 b2 s) := by
  unfold takeHeader
  split
  · split
    · exact withStartup_keeps s _
    · exact enterConfigFault_keeps s
  · exact .refl _ _

theorem enterListening_keeps (img : Image) (sig : Word16) (s : State) :
    KeepsAllBut [.startup, .lines, .scanner, .link, .meter, .compressor, .dryer, .share] s
      (enterListening img sig s) := by
  intro b hb
  cases b <;> first | rfl | exact absurd (by decide) hb

theorem takeImageBody_keeps (rest : List Byte) (s : State) :
    KeepsAllBut [.startup, .lines, .scanner, .link, .meter, .compressor, .dryer, .share] s
      (takeImageBody rest s) := by
  unfold takeImageBody
  split
  · split
    · split
      · dsimp only
        split
        · exact (enterConfigFault_keeps s).mono (by decide)
        · exact enterListening_keeps _ _ s
      · exact .refl _ _
    · exact .refl _ _
    · exact .refl _ _
    · exact .refl _ _
  · exact .refl _ _

theorem listeningExpiry_keeps (s : State) :
    KeepsAllBut [.startup, .inbox] s (listeningExpiry s) := by
  unfold listeningExpiry
  split
  · exact ((withStartup_keeps s _).mono (by decide)).then ((withInbox_keeps _ _).mono (by decide))
  · exact .refl _ _

theorem clockTick_keeps (s : State) : KeepsAllBut [.events] s (clockTick s) := by
  unfold clockTick
  split
  · exact .refl _ _
  · exact withEvents_keeps s _

/-! ### Field lines -/

theorem stabilityExpiry_keeps (n : Nat) (s : State) :
    KeepsAllBut [.lines, .inbox] s (stabilityExpiry n s) := by
  refine whenActive_frame ?_
  have w (x : FieldLines) : KeepsAllBut [.lines, .inbox] s (s.withLines x) :=
    (withLines_keeps s x).mono (by decide)
  split
  · exact .refl _ _
  · dsimp only
    split
    · split
      · exact w _
      · exact (w _).then ((deliverChange_keeps _ _ _).mono (by decide))
    · exact .refl _ _

theorem applyDuty_keeps (s : State) : KeepsAllBut [.lines] s (applyDuty s) :=
  whenActive_frame (withLines_keeps s _)

/-! ### Sensor scan -/

theorem scanExpiry_keeps (s : State) : KeepsAllBut [.scanner, .events] s (scanExpiry s) := by
  have w (x : Scanner) : KeepsAllBut [.scanner, .events] s (s.withScanner x) :=
    (withScanner_keeps s x).mono (by decide)
  refine whenActive_frame ?_
  split
  · split
    · exact w _
    · split
      · exact .refl _ _
      · exact (w _).then ((post_keeps _ _ _).mono (by decide))
  · exact .refl _ _

theorem startEnd_keeps (s : State) : KeepsAllBut [.scanner] s (startEnd s) := by
  refine whenActive_frame ?_
  split
  · exact .refl _ _
  · split
    · exact withScanner_keeps s _
    · exact .refl _ _
    · exact .refl _ _

theorem waitExpiry_keeps (s : State) : KeepsAllBut [.scanner] s (waitExpiry s) := by
  refine whenActive_frame ?_
  split
  · exact .refl _ _
  · split
    · exact withScanner_keeps s _
    · exact .refl _ _
    · exact .refl _ _

theorem readEnd_keeps (reply : List Byte) (s : State) :
    KeepsAllBut [.scanner, .events, .inbox] s (readEnd reply s) := by
  refine whenActive_frame ?_
  split
  · exact .refl _ _
  · split
    · split
      · exact (takeReading_keeps _ reply s).then ((withScanner_keeps _ _).mono (by decide))
      · exact .refl _ _
    · exact .refl _ _
    · exact .refl _ _

/-! ### The pad link -/

theorem startSend_keeps (n : Nat) (s : State) : KeepsAllBut [.link] s (startSend n s) := by
  refine whenActive_frame ?_
  split
  · exact .refl _ _
  · split
    · exact withLink_keeps s _
    · exact .refl _ _

theorem loseArbitration_keeps (bit : Nat) (s : State) :
    KeepsAllBut [.link] s (loseArbitration bit s) := by
  refine whenActive_frame ?_
  split
  · exact .refl _ _
  · split
    · exact withLink_keeps s _
    · exact .refl _ _

theorem collide_keeps (s : State) : KeepsAllBut [.link, .events] s (collide s) := by
  have w (x : Link) : KeepsAllBut [.link, .events] s (s.withLink x) :=
    (withLink_keeps s x).mono (by decide)
  refine whenActive_frame ?_
  split
  · dsimp only
    split
    · exact w _
    · exact (w _).then ((post_keeps _ _ _).mono (by decide))
  · exact .refl _ _

theorem headSent_keeps (s : State) : KeepsAllBut [.link] s (headSent s) := by
  refine whenActive_frame ?_
  split
  · exact withLink_keeps s _
  · exact .refl _ _

theorem setRx_keeps (x : RxState) (s : State) : KeepsAllBut [.link] s (setRx x s) :=
  withLink_keeps s _

theorem receiveFrame_keeps (bytes : List Byte) (s : State) :
    KeepsAllBut [.link] s (receiveFrame bytes s) := by
  unfold receiveFrame
  split
  · dsimp only
    split
    · split
      · exact setRx_keeps _ s
      · exact (setRx_keeps _ s).then (withLink_keeps _ _)
    · exact setRx_keeps _ s
  · exact .refl _ _

theorem breakOff_keeps (s : State) : KeepsAllBut [.link] s (breakOff s) := by
  unfold breakOff
  split
  · exact setRx_keeps _ s
  · exact .refl _ _

theorem longHeader_keeps (h1 : Byte) (s : State) : KeepsAllBut [.link] s (longHeader h1 s) := by
  unfold longHeader
  split
  · exact setRx_keeps _ s
  · exact .refl _ _

theorem startBit_keeps (s : State) : KeepsAllBut [.link] s (startBit s) := by
  unfold startBit
  split
  · exact setRx_keeps _ s
  · exact .refl _ _

theorem admitEvent_keeps (s : State) : KeepsAllBut [.link, .events] s (admitEvent s) := by
  refine whenActive_frame ?_
  split
  · exact .refl _ _
  · split
    · exact ((withLink_keeps s _).mono (by decide)).then ((withEvents_keeps _ _).mono (by decide))
    · exact .refl _ _

/-! ### Peers -/

theorem takePeerStatus_keeps (address : Nat) (fields : StatusFields) (s : State) :
    KeepsAllBut [.roster, .events] s (takePeerStatus address fields s) :=
  ((withRoster_keeps s _).mono (by decide)).then ((postAll_keeps _ _).mono (by decide))

theorem takeDuplicate_pending (s : State) : (takeDuplicate s).pending = s.pending := by
  unfold takeDuplicate
  split
  · rfl
  · exact post_pending _ _ s

theorem takeStatus_keeps (s : State) : KeepsAllBut everyBlock s (takeStatus s) := by
  refine takeBy_frame (by decide) fun f g t hg => ?_
  split at hg
  · cases hg
    split
    · exact keepsAllBut_everyBlock (takeDuplicate_pending t)
    · exact (takePeerStatus_keeps _ _ t).mono (by decide)
  · cases hg

theorem silenceExpiry_keeps (n : Nat) (s : State) :
    KeepsAllBut [.roster, .events] s (silenceExpiry n s) := by
  refine whenActive_frame ?_
  dsimp only
  split
  · exact ((withRoster_keeps s _).mono (by decide)).then ((postAll_keeps _ _).mono (by decide))
  · exact .refl _ _

/-! ### Accounts -/

theorem takeMark_keeps (s : State) : KeepsAllBut [.link, .accounts, .events] s (takeMark s) := by
  refine takeBy_frame (by decide) fun f g t hg => ?_
  split at hg <;> cases hg
  exact (markBy_keeps _ _ t).mono (by decide)

theorem takeNominate_keeps (s : State) :
    KeepsAllBut [.link, .accounts, .events] s (takeNominate s) := by
  refine takeBy_frame (by decide) fun f g t hg => ?_
  split at hg <;> cases hg
  exact (nominateBy_keeps _ _ _ t).mono (by decide)

theorem takeSetup_keeps (s : State) : KeepsAllBut [.link, .accounts, .events] s (takeSetup s) := by
  refine takeBy_frame (by decide) fun f g t hg => ?_
  split at hg <;> cases hg
  exact (setupBy_keeps _ _ _ t).mono (by decide)

theorem takeBalance_keeps (s : State) :
    KeepsAllBut [.link, .accounts, .events] s (takeBalance s) := by
  refine takeBy_frame (by decide) fun f g t hg => ?_
  split at hg <;> cases hg
  exact (balanceBy_keeps _ _ t).mono (by decide)

theorem takeRetire_keeps (s : State) : KeepsAllBut [.link, .accounts, .events] s (takeRetire s) := by
  refine takeBy_frame (by decide) fun f g t hg => ?_
  split at hg <;> cases hg
  exact (retireBy_keeps _ t).mono (by decide)

theorem admitClosing_keeps (s : State) : KeepsAllBut [.link, .accounts] s (admitClosing s) := by
  refine whenActive_frame ?_
  split
  · exact .refl _ _
  · split
    · exact ((withLink_keeps s _).mono (by decide)).then ((withAccounts_keeps _ _).mono (by decide))
    · exact .refl _ _

theorem takeMetered_keeps (s : State) : KeepsAllBut [.accounts] s (takeMetered s) := by
  refine whenActive_frame ?_
  split
  · exact .refl _ _
  · exact withAccounts_keeps s _

theorem takeFuel_keeps (s : State) : KeepsAllBut [.accounts] s (takeFuel s) := by
  refine whenActive_frame ?_
  split
  · exact .refl _ _
  · exact withAccounts_keeps s _

theorem periodExpiry_keeps (s : State) : KeepsAllBut [.accounts] s (periodExpiry s) := by
  refine whenActive_frame ?_
  split
  · exact withAccounts_keeps s _
  · exact .refl _ _

theorem graceExpiry_keeps (s : State) : KeepsAllBut [.accounts, .events] s (graceExpiry s) := by
  refine whenActive_frame ?_
  split
  · exact ownClockRotation_keeps s
  · exact .refl _ _

/-! ### Queries -/

theorem takeQuery_keeps (s : State) (reply : Query → Option (State → List Byte)) :
    KeepsAllBut [.link, .events] s (takeQuery s reply) := by
  refine takeBy_frame (by decide) fun f g t hg => ?_
  split at hg
  · obtain ⟨form, -, rfl⟩ := Option.map_eq_some_iff.1 hg
    exact offerReport_keeps _ _ t
  · cases hg

/-! ### Metering -/

theorem formIncrements_keeps (s : State) :
    KeepsAllBut [.lines, .meter, .accounts, .inbox, .events] s (formIncrements s) :=
  ((((withLines_keeps s _).mono (by decide)).then ((withMeter_keeps _ _).mono (by decide))).then
    (((withAccounts_keeps _ _).mono (by decide)).then ((withInbox_keeps _ _).mono (by decide)))).then
    ((postAll_keeps _ _).mono (by decide))

theorem interval_keeps (s : State) :
    KeepsAllBut [.lines, .meter, .accounts, .inbox, .events] s (interval s) := by
  refine whenActive_frame ?_
  split
  · exact ((settle_keeps s).mono (by decide)).then (formIncrements_keeps _)
  · exact .refl _ _

theorem clearUnexpected_keeps (s : State) :
    KeepsAllBut [.inbox, .meter] s (clearUnexpected s) := by
  refine whenActive_frame ?_
  split
  · exact .refl _ _
  · exact ((withInbox_keeps s _).mono (by decide)).then ((withMeter_keeps _ _).mono (by decide))

theorem historyExpiry_keeps (s : State) : KeepsAllBut [.meter, .events] s (historyExpiry s) := by
  refine whenActive_frame ?_
  split
  · split
    · exact .refl _ _
    · exact ((withMeter_keeps s _).mono (by decide)).then ((postAll_keeps _ _).mono (by decide))
  · exact .refl _ _

/-! ### Compressor duty -/

theorem startTimeout_keeps (u : UnitId) (s : State) :
    KeepsAllBut [.compressor, .lines, .inbox, .events] s (startTimeout u s) := by
  have j (t : State) : KeepsAllBut [.compressor, .lines, .inbox, .events] t (judgeTrain t) :=
    (judgeTrain_keeps t).mono (by decide)
  have l (dest : UnitState) (t : State) :
      KeepsAllBut [.compressor, .lines, .inbox, .events] t (leaveTo u dest t) :=
    (leaveTo_keeps u dest t).mono (by decide)
  have p (k : EventKind) (d : Nat) (t : State) :
      KeepsAllBut [.compressor, .lines, .inbox, .events] t (post k d t) :=
    (post_keeps k d t).mono (by decide)
  have f (r : UnitRec) : KeepsAllBut [.compressor, .lines, .inbox, .events] s
      (post .unitStartFail (unitNumber u) (s.setUnit u r)) :=
    ((setUnit_keeps u r s).mono (by decide)).then (p _ _ _)
  refine whenActive_frame ?_
  dsimp only
  split
  · split
    · exact ((f _).then (l _ _)).then (j _)
    · exact (((f _).then (l _ _)).then (p _ _ _)).then (j _)
  · exact .refl _ _

theorem feedbackOn_keeps (u : UnitId) (s : State) :
    KeepsAllBut [.compressor, .lines, .inbox] s (feedbackOn u s) := by
  refine takeLine_frame (by decide) fun t => ?_
  split
  · exact (enterRunning_keeps u t).then (judgeTrain_keeps _)
  · exact .refl _ _

theorem feedbackOff_keeps (u : UnitId) (s : State) :
    KeepsAllBut [.compressor, .lines, .inbox, .events] s (feedbackOff u s) := by
  refine takeLine_frame (by decide) fun t => ?_
  split
  · exact (tripUnit_keeps u 1 t).then ((judgeTrain_keeps _).mono (by decide))
  · exact .refl _ _

theorem faultOn_keeps (u : UnitId) (s : State) :
    KeepsAllBut [.compressor, .lines, .inbox, .events] s (faultOn u s) := by
  refine takeLine_frame (by decide) fun t => ?_
  split
  · exact (tripUnit_keeps u 2 t).then ((judgeTrain_keeps _).mono (by decide))
  · split
    · exact (judgeTrain_keeps t).mono (by decide)
    · exact .refl _ _

theorem faultOff_keeps (u : UnitId) (s : State) :
    KeepsAllBut [.compressor, .lines, .inbox] s (faultOff u s) := by
  refine takeLine_frame (by decide) fun t => ?_
  split
  · exact judgeTrain_keeps t
  · exact .refl _ _

theorem runClock_keeps (u : UnitId) (s : State) : KeepsAllBut [.compressor] s (runClock u s) := by
  refine whenActive_frame ?_
  dsimp only
  split
  · exact setUnit_keeps u _ s
  · exact .refl _ _

theorem minRunExpiry_keeps (u : UnitId) (s : State) :
    KeepsAllBut [.compressor, .lines, .inbox] s (minRunExpiry u s) := by
  refine whenActive_frame ?_
  dsimp only
  split
  · exact ((setUnit_keeps u _ s).mono (by decide)).then (judgeDuty_keeps _)
  · exact .refl _ _

theorem minStopExpiry_keeps (u : UnitId) (s : State) :
    KeepsAllBut [.compressor, .lines, .inbox] s (minStopExpiry u s) := by
  have w (r : UnitRec) : KeepsAllBut [.compressor, .lines, .inbox] s (s.setUnit u r) :=
    (setUnit_keeps u r s).mono (by decide)
  refine whenActive_frame ?_
  dsimp only
  split
  · split
    · exact (w _).then (judgeTrain_keeps _)
    · exact w _
  · exact .refl _ _

theorem cooldownEnd_keeps (u : UnitId) (s : State) :
    KeepsAllBut [.compressor, .lines, .inbox] s (cooldownEnd u s) := by
  refine whenActive_frame ?_
  dsimp only
  split
  · exact ((setUnit_keeps u _ s).mono (by decide)).then (judgeTrain_keeps _)
  · exact .refl _ _

theorem startDwellEnd_keeps (s : State) :
    KeepsAllBut [.compressor, .lines, .inbox] s (startDwellEnd s) := by
  refine whenActive_frame ?_
  split
  · exact ((withCompressor_keeps s _).mono (by decide)).then (judgeDuty_keeps _)
  · exact .refl _ _

theorem stopDwellEnd_keeps (s : State) :
    KeepsAllBut [.compressor, .lines, .inbox] s (stopDwellEnd s) := by
  refine whenActive_frame ?_
  split
  · exact ((withCompressor_keeps s _).mono (by decide)).then (judgeDuty_keeps _)
  · exact .refl _ _

theorem trainDirectionChange_keeps (s : State) :
    KeepsAllBut [.compressor, .lines, .inbox] s (trainDirectionChange s) := by
  refine whenActive_frame ?_
  split
  · exact .refl _ _
  · exact ((withInbox_keeps s _).mono (by decide)).then (takeDirChange_keeps _ _)

theorem takeClearUnit_keeps (s : State) :
    KeepsAllBut [.link, .compressor, .lines, .inbox, .events] s (takeClearUnit s) := by
  refine takeBy_frame (by decide) fun f g t hg => ?_
  split at hg <;> cases hg
  exact (clearUnitBy_keeps _ t).mono (by decide)

/-! ### Gas drying -/

theorem takeClearTower_keeps (s : State) :
    KeepsAllBut [.link, .dryer, .lines, .events] s (takeClearTower s) := by
  refine takeBy_frame (by decide) fun f g t hg => ?_
  split at hg <;> cases hg
  exact (clearTowerBy_keeps _ t).mono (by decide)

theorem takeDryerIncrement_keeps (s : State) :
    KeepsAllBut [.inbox, .dryer, .lines, .events] s (takeDryerIncrement s) := by
  have w (x : Inbox) : KeepsAllBut [.inbox, .dryer, .lines, .events] s (s.withInbox x) :=
    (withInbox_keeps s x).mono (by decide)
  refine whenActive_frame ?_
  split
  · exact .refl _ _
  · dsimp only
    split
    · exact ((w _).then ((withDryer_keeps _ _).mono (by decide))).then
        ((judgeSwitch_keeps _).mono (by decide))
    · exact w _

theorem halfHeat_keeps (t : Tower) (s : State) :
    KeepsAllBut [.dryer, .lines, .events] s (halfHeat t s) := by
  have w (d : Dryer) : KeepsAllBut [.dryer, .lines, .events] s (putDryer d s) :=
    (putDryer_keeps d s).mono (by decide)
  refine whenActive_frame ?_
  dsimp only
  split
  · split
    · exact w _
    · exact (w _).then (faultTower_keeps t _ _)
  · exact .refl _ _

theorem heatEnd_keeps (t : Tower) (s : State) : KeepsAllBut [.dryer, .lines] s (heatEnd t s) := by
  refine whenActive_frame ?_
  dsimp only
  split
  · exact (putDryer_keeps _ s).then (handOver_keeps _)
  · exact .refl _ _

theorem coolEnd_keeps (t : Tower) (s : State) :
    KeepsAllBut [.dryer, .lines, .events] s (coolEnd t s) := by
  refine whenActive_frame ?_
  dsimp only
  split
  · exact ((putDryer_keeps _ s).mono (by decide)).then (judgeSwitch_keeps _)
  · exact .refl _ _

theorem takeDewUpdate_keeps (s : State) :
    KeepsAllBut [.inbox, .dryer, .lines, .events] s (takeDewUpdate s) := by
  refine whenActive_frame ?_
  split
  · exact .refl _ _
  · exact ((withInbox_keeps s _).mono (by decide)).then ((judgeDew_keeps _ _ _).mono (by decide))

theorem dryerEntry_keeps (s : State) :
    KeepsAllBut [.inbox, .dryer, .lines, .events] s (dryerEntry s) := by
  refine whenActive_frame ?_
  split
  · exact (((withInbox_keeps s _).mono (by decide)).then ((handOver_keeps _).mono (by decide))).then
      ((judgeSwitch_keeps _).mono (by decide))
  · exact .refl _ _

/-! ### Rate sharing -/

theorem storeShare_keeps (o : ShareOut) (s : State) :
    KeepsAllBut [.dryer, .share, .inbox] s (storeShare o s) :=
  (((withDryer_keeps s _).mono (by decide)).then ((withShare_keeps _ _).mono (by decide))).then
    ((withInbox_keeps _ _).mono (by decide))

theorem sendStatus_keeps (s : State) : KeepsAllBut [.link] s (sendStatus s) := withLink_keeps s _

theorem shareCycle_keeps (s : State) :
    KeepsAllBut [.share, .dryer, .inbox, .compressor, .lines, .link] s (shareCycle s) := by
  refine whenActive_frame ?_
  split
  · exact (((storeShare_keeps _ s).mono (by decide)).then ((judgeDuty_keeps _).mono (by decide))).then
      ((sendStatus_keeps _).mono (by decide))
  · exact .refl _ _

/-! ### Direction and ramp -/

theorem takeClearTrip_keeps (s : State) :
    KeepsAllBut [.link, .direction, .lines, .inbox, .events] s (takeClearTrip s) := by
  refine takeBy_frame (by decide) fun f g t hg => ?_
  split at hg <;> cases hg
  exact (clearByFrame_keeps t).mono (by decide)

theorem takeDelivery_keeps (s : State) :
    KeepsAllBut [.direction, .lines, .inbox, .events] s (takeDelivery s) := by
  refine whenActive_frame ?_
  split
  · exact .refl _ _
  · exact ((withInbox_keeps s _).mono (by decide)).then (deliver_keeps _ _ _)

theorem takeNotice_keeps (s : State) :
    KeepsAllBut [.direction, .lines, .inbox, .events] s (takeNotice s) := by
  refine whenActive_frame ?_
  split
  · exact .refl _ _
  · exact ((withInbox_keeps s _).mono (by decide)).then (takeNoticeOf_keeps _ _)

theorem valveChange_keeps (fb : ValveFb) (s : State) :
    KeepsAllBut [.direction, .lines, .inbox, .events] s (valveChange fb s) := by
  refine whenActive_frame ?_
  split
  · exact .refl _ _
  · exact ((withInbox_keeps s _).mono (by decide)).then (judgeFeedback_keeps _)

theorem estopOn_keeps (s : State) :
    KeepsAllBut [.direction, .lines, .inbox, .events] s (estopOn s) := by
  refine takeLine_frame (by decide) fun t => ?_
  split
  · exact .refl _ _
  · exact enterTripped_keeps _ t

theorem estopOff_keeps (s : State) : KeepsAllBut [.inbox] s (estopOff s) :=
  takeLine_frame (by decide) fun t => .refl _ t

theorem clearInOn_keeps (s : State) :
    KeepsAllBut [.direction, .lines, .inbox, .events] s (clearInOn s) :=
  takeLine_frame (by decide) clearByLine_keeps

theorem lineupExpiry_keeps (s : State) :
    KeepsAllBut [.direction, .lines, .inbox, .events] s (lineupExpiry s) := by
  refine whenActive_frame ?_
  split
  · split
    · exact failLineup_keeps _ s
    · exact .refl _ _
  · exact .refl _ _

theorem holdExpiry_keeps (s : State) :
    KeepsAllBut [.direction, .lines, .inbox, .events] s (holdExpiry s) := by
  refine whenActive_frame ?_
  split
  · split
    · exact enterRundown_keeps _ s
    · exact .refl _ _
  · exact .refl _ _

theorem rampStep_keeps (s : State) :
    KeepsAllBut [.direction, .lines, .inbox, .events] s (rampStep s) := by
  refine whenActive_frame ?_
  split
  · exact ((withDirection_keeps s _).mono (by decide)).then (closeAtZero_keeps _)
  · exact .refl _ _

theorem closeExpiry_keeps (s : State) :
    KeepsAllBut [.direction, .lines, .inbox, .events] s (closeExpiry s) := by
  refine whenActive_frame ?_
  split
  · exact enterTripped_keeps _ s
  · exact .refl _ _

theorem settleExpiry_keeps (s : State) :
    KeepsAllBut [.direction, .lines, .inbox, .events] s (settleExpiry s) := by
  refine whenActive_frame ?_
  split
  · exact ((withDirection_keeps s _).mono (by decide)).then (judgeExit_keeps _)
  · exact .refl _ _

theorem directionEntry_keeps (s : State) :
    KeepsAllBut [.direction, .lines, .inbox, .events] s (directionEntry s) := by
  refine whenActive_frame ?_
  split
  · exact ((withInbox_keeps s _).mono (by decide)).then (judgeExit_keeps _)
  · exact .refl _ _

/-! ### Every command -/

/-- The frame of each command, read off its meaning's. -/
theorem exec_keeps {s t : State} :
    ∀ c : Instr, exec c s = .next t → KeepsAllBut (touches c) s t
  | .reset, h => (resetPart_keeps s).of_next h
  | .resetEnd, h => (endReset_keeps s).of_next h
  | .configHeaderTaken b0 b1 b2, h => (takeHeader_keeps b0 b1 b2 s).of_next h
  | .configImageRead rest, h => (takeImageBody_keeps rest s).of_next h
  | .listeningTimerExpiry, h => (listeningExpiry_keeps s).of_next h
  | .startClockTick, h => (clockTick_keeps s).of_next h
  | .senseLevelChange n high, h => onLine_next h ▸ senseLevelChange_keeps n high s
  | .stabilityTimerExpiry n, h => onLine_next h ▸ stabilityExpiry_keeps n s
  | .countPulse n high, h => onLine_next h ▸ countEdge_keeps n high s
  | .pwmPeriodStart, h => (applyDuty_keeps s).of_next h
  | .scanTimerExpiry, h => (scanExpiry_keeps s).of_next h
  | .startTransactionEnd, h => (startEnd_keeps s).of_next h
  | .conversionWaitExpiry, h => (waitExpiry_keeps s).of_next h
  | .readTransactionEnd reply, h => (readEnd_keeps reply s).of_next h
  | .linkTxStart n, h => (startSend_keeps n s).of_next h
  | .arbitrationLoss bit, h => (loseArbitration_keeps bit s).of_next h
  | .collision, h => (collide_keeps s).of_next h
  | .frameSent, h => (headSent_keeps s).of_next h
  | .frameReceive bytes, h => (receiveFrame_keeps bytes s).of_next h
  | .frameBrokenOff, h => (breakOff_keeps s).of_next h
  | .statusTake, h => (takeStatus_keeps s).of_next h
  | .silenceTimerExpiry n, h => execSilenceTimerExpiry_next h ▸ silenceExpiry_keeps n s
  | .mark, h => (takeMark_keeps s).of_next h
  | .nominate, h => (takeNominate_keeps s).of_next h
  | .setup, h => (takeSetup_keeps s).of_next h
  | .balance, h => (takeBalance_keeps s).of_next h
  | .retire, h => (takeRetire_keeps s).of_next h
  | .clearTrip, h => (takeClearTrip_keeps s).of_next h
  | .clearUnit, h => (takeClearUnit_keeps s).of_next h
  | .clearTower, h => (takeClearTower_keeps s).of_next h
  | .queryAccount, h => (takeQuery_keeps s _).of_next h
  | .queryEntry, h => (takeQuery_keeps s _).of_next h
  | .queryPeer, h => (takeQuery_keeps s _).of_next h
  | .queryQuantity, h => (takeQuery_keeps s _).of_next h
  | .queryLines, h => (takeQuery_keeps s _).of_next h
  | .queryStation, h => (takeQuery_keeps s _).of_next h
  | .shareCycle, h => (shareCycle_keeps s).of_next h
  | .eventAdmission, h => (admitEvent_keeps s).of_next h
  | .closingReportAdmission, h => (admitClosing_keeps s).of_next h
  | .meterInterval, h => (interval_keeps s).of_next h
  | .accountIncrementTake, h => (takeMetered_keeps s).of_next h
  | .fuelIncrementTake, h => (takeFuel_keeps s).of_next h
  | .dryerIncrementTake, h => (takeDryerIncrement_keeps s).of_next h
  | .unexpectedMarkClear, h => (clearUnexpected_keeps s).of_next h
  | .historyTimerExpiry, h => (historyExpiry_keeps s).of_next h
  | .startTimeoutExpiry u, h => (startTimeout_keeps u s).of_next h
  | .runFeedbackAssertion u, h => (feedbackOn_keeps u s).of_next h
  | .runFeedbackRelease u, h => (feedbackOff_keeps u s).of_next h
  | .faultInputAssertion u, h => (faultOn_keeps u s).of_next h
  | .faultInputRelease u, h => (faultOff_keeps u s).of_next h
  | .runClockExpiry u, h => (runClock_keeps u s).of_next h
  | .minimumRunExpiry u, h => (minRunExpiry_keeps u s).of_next h
  | .minimumStopExpiry u, h => (minStopExpiry_keeps u s).of_next h
  | .cooldownExpiry u, h => (cooldownEnd_keeps u s).of_next h
  | .startDwellExpiry, h => (startDwellEnd_keeps s).of_next h
  | .stopDwellExpiry, h => (stopDwellEnd_keeps s).of_next h
  | .trainDirectionChange, h => (trainDirectionChange_keeps s).of_next h
  | .halfHeatPoint w, h => (halfHeat_keeps w s).of_next h
  | .heatTimeExpiry w, h => (heatEnd_keeps w s).of_next h
  | .coolTimeExpiry w, h => (coolEnd_keeps w s).of_next h
  | .dewOutUpdate, h => (takeDewUpdate_keeps s).of_next h
  | .dryerRunningEntry, h => (dryerEntry_keeps s).of_next h
  | .shareDelivery, h => (takeDelivery_keeps s).of_next h
  | .compressorNotice, h => (takeNotice_keeps s).of_next h
  | .valveFeedbackChange fb, h => (valveChange_keeps fb s).of_next h
  | .estopInAssertion, h => (estopOn_keeps s).of_next h
  | .estopInRelease, h => (estopOff_keeps s).of_next h
  | .clearInAssertion, h => (clearInOn_keeps s).of_next h
  | .lineupTimerExpiry, h => (lineupExpiry_keeps s).of_next h
  | .holdTimerExpiry, h => (holdExpiry_keeps s).of_next h
  | .rampStep, h => (rampStep_keeps s).of_next h
  | .closeTimerExpiry, h => (closeExpiry_keeps s).of_next h
  | .settleTimerExpiry, h => (settleExpiry_keeps s).of_next h
  | .directionRunningEntry, h => (directionEntry_keeps s).of_next h
  | .periodTimerExpiry, h => (periodExpiry_keeps s).of_next h
  | .graceTimerExpiry, h => (graceExpiry_keeps s).of_next h
  | .headerLengthAbove24 _ h1, h => (longHeader_keeps h1 s).of_next h
  | .startBitAfterIdle, h => (startBit_keeps s).of_next h

/-- No command touches the queue of waiting commands. -/
theorem pending_notMem_touches (c : Instr) : Block.pending ∉ touches c := by
  cases c <;> simp [touches, everyBlock]

/-- Settles O2: the table `exec_keeps` and `pending_notMem_touches`. -/
theorem everyCommandChangesOnlyItsBlocks : Obligations.EveryCommandChangesOnlyItsBlocks :=
  ⟨fun c _ _ h => exec_keeps c h, pending_notMem_touches⟩

end Sys2Proof.Machine
end

section
/-! Which commands answer a next state, which of them rest outside LISTENING and RUNNING, and what keeps
`IdleAtReset` there. -/

namespace Sys2Proof.Machine

/-! ### Every well-formed command runs -/

/-- A well-formed command answers a next state: the four that name a line or a peer name one that
exists, the others are total. -/
theorem exec_runs (c : Instr) (s : State) (hw : c.wf = true) : ∃ t, exec c s = .next t := by
  cases c with
  | senseLevelChange n high =>
    obtain ⟨h1, h2⟩ : 1 ≤ n ∧ n ≤ 24 := by simpa [Instr.wf] using hw
    exact ⟨_, onLine_inside s _ h1 h2⟩
  | stabilityTimerExpiry n =>
    obtain ⟨h1, h2⟩ : 1 ≤ n ∧ n ≤ 24 := by simpa [Instr.wf] using hw
    exact ⟨_, onLine_inside s _ h1 h2⟩
  | countPulse n high =>
    obtain ⟨h1, h2⟩ : 1 ≤ n ∧ n ≤ 24 := by simpa [Instr.wf] using hw
    exact ⟨_, onLine_inside s _ h1 h2⟩
  | silenceTimerExpiry n =>
    have h : 1 ≤ n ∧ n ≤ 32 := by simpa [Instr.wf] using hw
    exact ⟨_, if_pos h⟩
  | _ => exact ⟨_, rfl⟩

/-- Settles O3: `exec_runs`, and the two faults. -/
theorem everyWellFormedCommandRuns : Obligations.EveryWellFormedCommandRuns :=
  ⟨exec_runs,
    fun _ _ s h => ⟨onLine_outside s _ h, onLine_outside s _ h, onLine_outside s _ h⟩,
    fun _ _ h => if_neg (by omega)⟩

/-! ### Outside LISTENING and RUNNING -/

theorem active_iff (s : State) :
    s.active = true ↔ s.startup.station = .listening ∨ s.startup.station = .running :=
  readyPin_iff s

theorem inactive_of_ne {s : State} (hl : s.startup.station ≠ .listening)
    (hr : s.startup.station ≠ .running) : s.active = false := by
  have h := (active_iff s).not.2 (by simp [hl, hr])
  simpa using h

/-- The listening timer runs in LISTENING alone (R208). -/
theorem listeningExpiry_inactive {s : State} (ha : s.active = false) : listeningExpiry s = s := by
  refine if_neg fun h => ?_
  rw [(active_iff s).2 (.inl h.1)] at ha
  cases ha

theorem eq_of_next {s t u : State} (k : u = s)
    (h : (Host.Outcome.next u : Host.Outcome State Fault Refusal) = .next t) : t = s := by
  cases h
  exact k

theorem takeBy_inactive {s : State} (ha : s.active = false) (c : Consumer)
    (act : RxFrame → Option (State → State)) : takeBy c s act = s := whenActive_off s _ ha

theorem takeLine_inactive {s : State} (ha : s.active = false) (role : Role) (lvl : Bool)
    (act : State → State) : takeLine role lvl s act = s := whenActive_off s _ ha

/-- Where the blocks rest, a command outside `actsWhileInactive` answers the same state or none: its
meaning takes a frame, takes a line's change, or is under the guard of `whenActive`. -/
theorem exec_inactive {c : Instr} {s t : State} (ha : s.active = false)
    (hc : actsWhileInactive c = false) (h : exec c s = .next t) : t = s := by
  cases c with
  | reset | resetEnd | configHeaderTaken | configImageRead | startClockTick | senseLevelChange
  | countPulse | frameReceive | frameBrokenOff | headerLengthAbove24 | startBitAfterIdle => cases hc
  | listeningTimerExpiry => exact eq_of_next (listeningExpiry_inactive ha) h
  | stabilityTimerExpiry n => exact (onLine_next h).trans (whenActive_off s _ ha)
  | silenceTimerExpiry n => exact (execSilenceTimerExpiry_next h).trans (whenActive_off s _ ha)
  | statusTake | mark | nominate | setup | balance | retire | clearTrip | clearUnit | clearTower
  | queryAccount | queryEntry | queryPeer | queryQuantity | queryLines | queryStation =>
    exact eq_of_next (takeBy_inactive ha _ _) h
  | runFeedbackAssertion | runFeedbackRelease | faultInputAssertion | faultInputRelease
  | estopInAssertion | estopInRelease | clearInAssertion =>
    exact eq_of_next (takeLine_inactive ha _ _ _) h
  | _ => exact eq_of_next (whenActive_off s _ ha) h

/-- Settles O4: a well-formed command runs (`exec_runs`) and, where the blocks rest, answers the same
state (`exec_inactive`). -/
theorem commandsRestOutsideListeningAndRunning :
    Obligations.CommandsRestOutsideListeningAndRunning := by
  intro c s hl hr hc hw
  obtain ⟨t, ht⟩ := exec_runs c s hw
  rw [ht, exec_inactive (inactive_of_ne hl hr) hc ht]

/-! ### Leaving LISTENING and RUNNING -/

theorem station_ne_loading_of_active {s : State} (ha : s.active = true) :
    s.startup.station ≠ .loading := by
  intro h
  simp [State.active, h] at ha

theorem takeHeader_of_ne_loading {s : State} (h : s.startup.station ≠ .loading) (b0 b1 b2 : Byte) :
    takeHeader b0 b1 b2 s = s := if_neg fun k => h k.1

theorem takeImageBody_of_ne_loading {s : State} (h : s.startup.station ≠ .loading) (rest : List Byte) :
    takeImageBody rest s = s := if_neg h

theorem endReset_active (s : State) : (endReset s).active = s.active := by
  unfold endReset
  split <;> rfl

theorem listeningExpiry_active {s : State} (ha : s.active = true) : (listeningExpiry s).active = true := by
  unfold listeningExpiry
  split
  · rfl
  · exact ha

/-- A STATUS with the duplicate mark is the one way into DUPLICATE (R51, R209). -/
theorem takeStatus_active {s : State} (ha : s.active = true) :
    (takeStatus s).active = true ∨ ∃ u, takeStatus s = enterDuplicate u := by
  refine takeBy_keeps (fun t => t.active = true ∨ ∃ u, t = enterDuplicate u) _ s _ (.inl ha)
    fun f rest g _ hg => ?_
  split at hg <;> cases hg
  split
  · unfold takeDuplicate
    split
    · exact .inr ⟨_, rfl⟩
    · exact .inl ((post_active _ _ _).trans ha)
  · exact .inl (((takePeerStatus_keeps _ _ _).active (by decide)).trans ha)

/-- From LISTENING and RUNNING only a reset and an entry to DUPLICATE lead to another station state:
every other command leaves the Start-up Controller's record or keeps the station at work. -/
theorem exec_of_active {c : Instr} {s t : State} (ha : s.active = true) (h : exec c s = .next t) :
    t.active = true ∨ t = resetPart s ∨ ∃ u, t = enterDuplicate u := by
  cases c with
  | reset => cases h; exact .inr (.inl rfl)
  | statusTake => cases h; exact (takeStatus_active ha).imp_right .inr
  | resetEnd => cases h; exact .inl ((endReset_active s).trans ha)
  | configHeaderTaken b0 b1 b2 =>
    exact .inl (eq_of_next (takeHeader_of_ne_loading (station_ne_loading_of_active ha) b0 b1 b2) h ▸ ha)
  | configImageRead rest =>
    exact .inl (eq_of_next (takeImageBody_of_ne_loading (station_ne_loading_of_active ha) rest) h ▸ ha)
  | listeningTimerExpiry => cases h; exact .inl (listeningExpiry_active ha)
  | _ => exact .inl (((exec_keeps _ h).active (by simp [touches])).trans ha)

/-! ### What acts outside LISTENING and RUNNING keeps the blocks at reset -/

/-- The Start-up Controller's record may change but for its station state and its timer. -/
theorem IdleAtReset.withStartup_sameStation {s : State} (h : IdleAtReset s) (x : StartUp)
    (hs : x.station = s.startup.station) (hl : x.listening = s.startup.listening) :
    IdleAtReset (s.withStartup x) := by
  have ha : (s.withStartup x).active = s.active := by simp [State.active, hs]
  constructor
  · intro k
    obtain ⟨h0, hrest⟩ := h.1 (ha ▸ k)
    exact ⟨hl.trans h0, hrest⟩
  · intro k
    exact h.2 (hs ▸ k)

theorem IdleAtReset.endReset {s : State} (h : IdleAtReset s) : IdleAtReset (endReset s) := by
  unfold Machine.endReset
  split
  · exact (h.withClock 0).withStartup_sameStation _ rfl rfl
  · exact h

theorem IdleAtReset.enterConfigFault {s : State} (h : IdleAtReset s)
    (hs : s.startup.station = .loading) : IdleAtReset (enterConfigFault s) :=
  h.withStartup hs _ rfl

theorem IdleAtReset.takeHeader {s : State} (h : IdleAtReset s) (b0 b1 b2 : Byte) :
    IdleAtReset (takeHeader b0 b1 b2 s) := by
  unfold Machine.takeHeader
  split
  · next hs =>
    split
    · exact h.withStartup hs.1 _ rfl
    · exact h.enterConfigFault hs.1
  · exact h

theorem IdleAtReset.takeImageBody {s : State} (h : IdleAtReset s) (rest : List Byte) :
    IdleAtReset (takeImageBody rest s) := by
  unfold Machine.takeImageBody
  split
  · next hs =>
    split
    · split
      · dsimp only
        split
        · exact h.enterConfigFault hs
        · exact .of_active rfl
      · exact h
    · exact h
    · exact h
    · exact h
  · exact h

theorem IdleAtReset.clockTick {s : State} (h : IdleAtReset s) : IdleAtReset (clockTick s) := by
  unfold Machine.clockTick
  split
  · exact h
  · exact h.withClock _

/-- While no line is sampled only the pin's level changes (R4). -/
theorem senseLevelChange_inactive {s : State} (ha : s.active = false) (n : Nat) (high : Bool) :
    senseLevelChange n high s = setPin n high s := by simp [senseLevelChange, ha]

/-- While no line is counted only the pin's level changes (R4). -/
theorem countEdge_inactive {s : State} (ha : s.active = false) (n : Nat) (high : Bool) :
    countEdge n high s = setPin n high s := by simp [countEdge, ha]

/-- Outside LISTENING and RUNNING the receiver follows the line in DUPLICATE alone (R36). -/
theorem station_of_linkFollows {s : State} (ha : s.active = false) (h : linkFollows s = true) :
    s.startup.station = .duplicate := by simpa [linkFollows, ha] using h

theorem IdleAtReset.receiveFrame {s : State} (h : IdleAtReset s) (ha : s.active = false)
    (bytes : List Byte) : IdleAtReset (receiveFrame bytes s) := by
  unfold Machine.receiveFrame
  split
  · next hf =>
    rw [ha]
    exact h.setRx (station_of_linkFollows ha hf.1) _
  · exact h

theorem IdleAtReset.breakOff {s : State} (h : IdleAtReset s) (ha : s.active = false) :
    IdleAtReset (breakOff s) := by
  unfold Machine.breakOff
  split
  · next hf => exact h.setRx (station_of_linkFollows ha hf.1) _
  · exact h

theorem IdleAtReset.longHeader {s : State} (h : IdleAtReset s) (ha : s.active = false) (h1 : Byte) :
    IdleAtReset (longHeader h1 s) := by
  unfold Machine.longHeader
  split
  · next hf => exact h.setRx (station_of_linkFollows ha hf.1) _
  · exact h

theorem IdleAtReset.startBit {s : State} (h : IdleAtReset s) (ha : s.active = false) :
    IdleAtReset (startBit s) := by
  unfold Machine.startBit
  split
  · next hf => exact h.setRx (station_of_linkFollows ha hf.1) _
  · exact h

/-- Outside LISTENING and RUNNING every command keeps the idle blocks at reset: those of
`actsWhileInactive` by the lemmas above, the others since they change nothing. -/
theorem IdleAtReset.exec_inactive {c : Instr} {s t : State} (hi : IdleAtReset s)
    (ha : s.active = false) (h : exec c s = .next t) : IdleAtReset t := by
  cases c with
  | reset => cases h; exact .of_resetPart s
  | resetEnd => cases h; exact hi.endReset
  | configHeaderTaken b0 b1 b2 => cases h; exact hi.takeHeader b0 b1 b2
  | configImageRead rest => cases h; exact hi.takeImageBody rest
  | startClockTick => cases h; exact hi.clockTick
  | senseLevelChange n high =>
    rw [onLine_next h, senseLevelChange_inactive ha]
    exact hi.setPin ha n high
  | countPulse n high =>
    rw [onLine_next h, countEdge_inactive ha]
    exact hi.setPin ha n high
  | frameReceive bytes => cases h; exact hi.receiveFrame ha bytes
  | frameBrokenOff => cases h; exact hi.breakOff ha
  | headerLengthAbove24 h0 h1 => cases h; exact hi.longHeader ha h1
  | startBitAfterIdle => cases h; exact hi.startBit ha
  | _ => exact Machine.exec_inactive ha rfl h ▸ hi

/-- A step runs the command at the front of the queue, or idles on an empty queue (log 3). -/
theorem step_next {s t : State} (h : step s = .next t) :
    t = s ∨ ∃ c rest, s.pending = c :: rest ∧ exec c (s.withPending rest) = .next t := by
  unfold step at h
  split at h
  · cases h; exact .inl rfl
  · next c rest hp => exact .inr ⟨c, rest, hp, h⟩

/-- The queue of waiting commands is not part of what rests. -/
theorem IdleAtReset.withPending {s : State} (h : IdleAtReset s) (x : List Instr) :
    IdleAtReset (s.withPending x) := h

/-- Settles O59: at rest every command keeps the idle blocks (`IdleAtReset.exec_inactive`), and from
LISTENING and RUNNING the only ways to rest are the two entries that establish them
(`exec_of_active`). -/
theorem stepsKeepTheIdlePartAtReset : Obligations.StepsKeepTheIdlePartAtReset := by
  intro s t hi h
  obtain rfl | ⟨c, rest, -, hx⟩ := step_next h
  · exact hi
  cases ha : (s.withPending rest).active with
  | false => exact (hi.withPending rest).exec_inactive ha hx
  | true =>
    obtain hact | rfl | ⟨u, rfl⟩ := exec_of_active ha hx
    · exact .of_active hact
    · exact .of_resetPart _
    · exact .of_enterDuplicate u

end Sys2Proof.Machine
end

section
/-! Reset (R202), the judgement of the configuration image (R205) and what CONFIG_IMAGE_READ does with it
(R206, R207). -/

namespace Sys2Proof.Machine

/-! ### Reset -/

/-- A line's record after a reset: its pin's level alone stands (log 28). -/
theorem resetPart_recs (s : State) (i : Nat) (r : LineRec) (h : s.lines.recs[i]? = some r) :
    (resetPart s).lines.recs[i]? = some { LineRec.reset with pinHigh := r.pinHigh } := by
  show (s.lines.recs.map _)[i]? = _
  rw [List.getElem?_map, h]
  rfl

/-- Settles O5: `resetPart` writes the reset record of each block; in LOADING every pin is
high-impedance. -/
theorem resetPutsEveryBlockBack : Obligations.ResetPutsEveryBlockBack := fun s =>
  ⟨resetPart s, rfl, rfl, rfl, rfl, rfl, rfl, rfl, rfl, rfl, rfl, rfl, rfl, rfl, rfl, rfl, rfl,
    resetPart_recs s, rfl, fun _ => rfl⟩

/-- Every entry of a cleared table is blank, and so is one read outside it (R176). -/
theorem entry_blankTable (i : Nat) : Entry.blankTable.getD i Entry.blank = Entry.blank := by
  unfold Entry.blankTable
  rw [List.getD_eq_getElem?_getD, List.getElem?_replicate]
  split <;> rfl

theorem entry_reset (t : TableId) (i : Nat) : Accounts.reset.entry t i = Entry.blank := by
  cases t <;> exact entry_blankTable i

/-- After reset only the holding account is present (R169). -/
theorem acc_reset_absent (i : Nat) (h : 1 ≤ i) : (Accounts.reset.acc i).present = false := by
  obtain ⟨j, rfl⟩ := Nat.exists_eq_add_of_le' h
  show ((List.replicate 48 AccRec.blank).getD j AccRec.blank).present = false
  rw [List.getD_eq_getElem?_getD, List.getElem?_replicate]
  split <;> rfl

/-- Settles O6: each block's reset record, field by field. -/
theorem resetLeavesTheSpecValues : Obligations.ResetLeavesTheSpecValues := by
  refine ⟨⟨rfl, rfl, rfl, rfl⟩, ⟨rfl, ?lines, rfl, rfl⟩, ⟨rfl, rfl, ?quantities⟩,
    ⟨rfl, rfl, rfl, rfl, rfl, rfl⟩, ⟨rfl, ?peers⟩, rfl, ?units, ⟨rfl, rfl, rfl, rfl, rfl⟩, rfl, rfl, rfl,
    ⟨rfl, rfl, rfl, rfl, rfl, rfl, rfl, rfl, rfl, rfl, ?accounts, rfl, rfl⟩,
    ⟨?entries, rfl, rfl, rfl, rfl, rfl, rfl, rfl, rfl, rfl, rfl, rfl, rfl⟩, ⟨rfl, rfl, rfl⟩⟩
  case lines =>
    intro l hl
    rw [List.eq_of_mem_replicate hl]
    exact ⟨rfl, rfl, rfl, rfl⟩
  case quantities =>
    intro q
    cases q <;> exact ⟨rfl, rfl, rfl⟩
  case peers =>
    intro p hp
    rw [List.eq_of_mem_replicate hp]
    exact ⟨rfl, rfl, rfl, rfl⟩
  case units =>
    intro u
    cases u <;> rfl
  case accounts => exact fun i h _ => acc_reset_absent i h
  case entries => exact entry_reset

/-! ### CONFIG_IMAGE_READ -/

theorem imageLength_eq (b0 b1 : Byte) : imageLength b0 b1 = b0.toNat * 256 + b1.toNat := by
  simp [imageLength, beNat]

/-- An image that fails a check (R206). -/
theorem takeImageBody_fails {b0 b1 b2 : Byte} {rest : List Byte} {s : State}
    (hst : s.startup.station = .loading) (hl : s.startup.load = .body b0 b1 b2)
    (hn : rest.length + 3 = imageLength b0 b1) (hc : checkImage (b0 :: b1 :: b2 :: rest) = none) :
    takeImageBody rest s = enterConfigFault s := by
  simp [takeImageBody, hst, hl, hn, hc]

/-- An image that passes the checks; the signature is its last two bytes (R205, R207). -/
theorem takeImageBody_passes {b0 b1 b2 : Byte} {rest : List Byte} {s : State} {img : Image}
    (hst : s.startup.station = .loading) (hl : s.startup.load = .body b0 b1 b2)
    (hn : rest.length + 3 = imageLength b0 b1)
    (hc : checkImage (b0 :: b1 :: b2 :: rest) = some img) :
    takeImageBody rest s =
      enterListening img (beWord ((b0 :: b1 :: b2 :: rest).drop (rest.length + 1))) s := by
  have hlen : (b0 :: b1 :: b2 :: rest).length - 2 = rest.length + 1 := rfl
  simp only [takeImageBody, hst, hl, hn, hc, hlen, if_true]

/-- A line's record on entry to LISTENING (R4, R5). -/
theorem enterListening_recs {img : Image} {s : State} {i : Nat} {c : LineCfg} {r : LineRec}
    (sig : Word16) (hc : img.lines[i]? = some c) (hr : s.lines.recs[i]? = some r) :
    (enterListening img sig s).lines.recs[i]? = some (startLine img.debounce c r) := by
  show (List.zipWith _ img.lines s.lines.recs)[i]? = _
  simp [List.getElem?_zipWith, hc, hr]

/-- A quantity's record on entry to LISTENING and DUPLICATE (R18). -/
theorem getQty_fallbackRecs (img : Image) (q : Qty) :
    getQty (fallbackRecs img) q = fallbackRec (getQty img.slots q) := by
  cases q <;> rfl

/-- Settles O8: `takeImageBody_fails`, and `takeImageBody_passes` with the fields of
`enterListening`. -/
theorem imageReadEntersListeningOrConfigFault :
    Obligations.ImageReadEntersListeningOrConfigFault := by
  intro b0 b1 b2 rest s hst hl hn
  rw [← imageLength_eq] at hn
  refine ⟨fun hc => congrArg Host.Outcome.next (takeImageBody_fails hst hl hn hc), fun img hc =>
    ⟨_, congrArg Host.Outcome.next (takeImageBody_passes hst hl hn hc), rfl, ?_, rfl, rfl, rfl, rfl, ?_, rfl, rfl, rfl,
      rfl, rfl, enterListening_keeps img _ s⟩⟩
  · exact fun i c r hi hr => enterListening_recs _ hi hr
  · exact getQty_fallbackRecs img

end Sys2Proof.Machine
end

section
/-! What the seven checks of R205 say of an image that passes them: each Boolean check as the condition
it stands for, and the request lengths that reading a slot record already gives (R13). -/

namespace Sys2Proof.Machine

/-! ### Ranges -/

theorem within_iff (lo hi x : Nat) : within lo hi x = true ↔ lo ≤ x ∧ x ≤ hi := by
  simp [within]

theorem qtyInRange_iff (q : Qty) (v : Int) :
    qtyInRange q v = true ↔ (qtyRange q).1 ≤ v ∧ v ≤ (qtyRange q).2 := by
  simp [qtyInRange]

/-- Each number of a list of (lowest, value, highest) lies within its bounds. -/
def InRanges (l : List (Nat × Nat × Nat)) : Prop :=
  ∀ lo x hi : Nat, (lo, x, hi) ∈ l → lo ≤ x ∧ x ≤ hi

theorem inRanges_nil : InRanges [] := fun _ _ _ h => by cases h

theorem inRanges_cons {lo x hi : Nat} {l : List (Nat × Nat × Nat)} :
    InRanges ((lo, x, hi) :: l) ↔ (lo ≤ x ∧ x ≤ hi) ∧ InRanges l := by
  constructor
  · exact fun h => ⟨h lo x hi (by simp), fun a b c m => h a b c (by simp [m])⟩
  · rintro ⟨h1, h2⟩ a b c m
    obtain e | m := List.mem_cons.1 m
    · cases e; exact h1
    · exact h2 a b c m

theorem InRanges.append {l m : List (Nat × Nat × Nat)} (hl : InRanges l) (hm : InRanges m) :
    InRanges (l ++ m) := fun a b c h =>
  (List.mem_append.1 h).elim (hl a b c) (hm a b c)

/-- Check 3 of the Station record (R63, R123, R147). -/
theorem stationInRange_iff (c : StationCfg) : stationInRange c = true ↔
    c.shareCycle ∈ [1, 2, 4, 8] ∧ InRanges
      [(0, c.deadband, 65535), (1, c.trimShift, 4), (0, c.fmin, 200000), (1, c.winj, 2000000),
        (1, c.wwd, 2000000), (1, c.pmin, 2500), (1, c.pmax, 2500),
        (0, c.baseInventory, 1000000000000), (1, c.historyInterval, 60), (1, c.riseLimit, 2500),
        (1, c.fallLimit, 2500), (1, c.lpp, 65535), (1, c.fuelPerPulse, 4095), (1, c.alpha, 32),
        (100, c.deltaMax, 500000), (1000, c.rfull, 2000000), (10, c.holdTime, 600),
        (0, c.settleTime, 1800), (10, c.lineupTimeout, 300), (10, c.closeTimeout, 300)] := by
  simp only [stationInRange, Bool.and_eq_true, within_iff, List.contains_iff_mem, inRanges_cons,
    inRanges_nil, and_true, and_assoc]

/-- Check 3 of the Compressor record, with check 7 for the upper bound of the stop threshold (R81). -/
theorem compressorInRange_ranges {c : CompressorCfg} (h : compressorInRange c = true)
    (h7 : c.stopThreshold + 4 ≤ c.startThreshold) : InRanges
      [(10, c.startTimeout, 300), (10, c.cooldown, 600), (0, c.minRun, 3600), (0, c.minStop, 1800),
        (0, c.hours1, 200000), (0, c.hours2, 200000), (32, c.startThreshold, 64),
        (16, c.stopThreshold, 60), (5, c.startDwell, 600), (5, c.stopDwell, 1800)] := by
  simp only [compressorInRange, Bool.and_eq_true, within_iff, decide_eq_true_eq] at h
  simp only [inRanges_cons, inRanges_nil, and_true]
  omega

/-- Check 3 of the Dryer record (R104). -/
theorem dryerInRange_ranges {c : DryerCfg} (h : dryerInRange c = true) : InRanges
      [(100, c.lmax, 1000000), (1, c.dmax, 2000000), (10, c.heatTime, 480), (10, c.coolTime, 480),
        (2330, c.regenTarget, 6230), (1, c.dewHysteresis, 100)] ∧
    -600 ≤ c.dewLimit ∧ c.dewLimit ≤ 400 := by
  simp only [dryerInRange, Bool.and_eq_true, within_iff, decide_eq_true_eq] at h
  simp only [inRanges_cons, inRanges_nil, and_true]
  omega

/-! ### Curves (R61) -/

theorem ascending_lt : ∀ (l : List (Nat × Nat)), ascending l = true →
    ∀ (i : Nat) (a b : Nat × Nat), l[i]? = some a → l[i + 1]? = some b → a.1 < b.1
  | [], _, _, _, _, ha, _ => by cases ha
  | [_], _, _, _, _, _, hb => by simp at hb
  | p :: q :: rest, h, i, a, b, ha, hb => by
    obtain ⟨hlt, hrest⟩ : p.1 < q.1 ∧ ascending (q :: rest) = true := by
      simpa [ascending] using h
    cases i with
    | zero => cases ha; cases hb; exact hlt
    | succ i => exact ascending_lt (q :: rest) hrest i a b ha hb

/-- Checks 3 and 4 of one curve. -/
def CurveMeets (c : Curve) (xlo xhi ylo yhi : Nat) : Prop :=
  2 ≤ c.points.length ∧ c.points.length ≤ 16 ∧
  (∀ p ∈ c.points, xlo ≤ p.1 ∧ p.1 ≤ xhi ∧ ylo ≤ p.2 ∧ p.2 ≤ yhi) ∧
  ∀ i a b, c.points[i]? = some a → c.points[i + 1]? = some b → a.1 < b.1

theorem curveMeets_of_checks {c : Curve} {xlo xhi ylo yhi : Nat}
    (hr : curveInRange c xlo xhi ylo yhi = true) (hs : curveShapeOk c = true) :
    CurveMeets c xlo xhi ylo yhi := by
  obtain ⟨⟨h2, h16⟩, hasc⟩ := by simpa only [curveShapeOk, Bool.and_eq_true, within_iff] using hs
  refine ⟨h2, h16, fun p hp => ?_, ascending_lt c.points hasc⟩
  have hp := List.all_eq_true.1 hr p hp
  simpa only [Bool.and_eq_true, within_iff, and_assoc] using hp

/-! ### Field lines (R2) -/

theorem mem_requiredRoles {r : Role} (h : r ≠ .spare) : r ∈ requiredRoles := by
  cases r <;> first | exact absurd rfl h | decide

/-- The legal modes by the role's kind (R2). -/
theorem legalMode_cases {r : Role} {m : LineMode} (h : legalMode r m = true) :
    (r ∈ [Role.meterPulse, .fuelPulse] → m = .count) ∧
    (r = .demandOut → m = .pwm) ∧
    (r ∈ [Role.whvCmd, .injvCmd, .wdvCmd, .tripOut, .u1RunCmd, .u2RunCmd, .twrACmd, .twrBCmd,
      .heaterCmd] → m = .odDrive ∨ m = .ppDrive) ∧
    (r ∈ [Role.whvOpenFb, .whvClosedFb, .injvFb, .wdvFb, .estopIn, .clearIn, .u1RunFb, .u2RunFb,
      .u1FaultIn, .u2FaultIn] → m = .sense) ∧
    (r = .spare → m = .sense ∨ m = .odDrive ∨ m = .ppDrive) := by
  cases r <;> simpa [legalMode] using h

/-! ### Reading a slot record (R13, R204) -/

/-- What a record holds is what its content's reader answers. -/
theorem takeRecord_content {α : Type} {kind : Nat} {content : List Byte → Option (α × List Byte)}
    {bs rest : List Byte} {x : α} (h : takeRecord kind content bs = some (x, rest)) :
    ∃ body, content body = some (x, rest) := by
  simp only [takeRecord, Option.bind_eq_bind, Option.bind_eq_some_iff] at h
  obtain ⟨_, -, ⟨_, body⟩, -, ⟨_, _⟩, hc, h⟩ := h
  split at h <;> cases h
  exact ⟨body, hc⟩

theorem takeBytes_length {k : Nat} {bs x rest : List Byte} (h : takeBytes k bs = some (x, rest)) :
    x.length = k := by
  unfold takeBytes at h
  split at h <;> cases h
  rw [List.length_take]
  omega

/-- A request holds 1 to 4 bytes. -/
theorem takeRequest_length {bs x rest : List Byte} (h : takeRequest bs = some (x, rest)) :
    1 ≤ x.length ∧ x.length ≤ 4 := by
  simp only [takeRequest, Option.bind_eq_bind, Option.bind_eq_some_iff] at h
  obtain ⟨⟨count, _⟩, -, ⟨four, _⟩, h4, h⟩ := h
  dsimp only at h
  split at h <;> cases h
  have h4 : four.length = 4 := takeBytes_length h4
  rw [List.length_take]
  omega

/-- Both requests of a slot hold 1 to 4 bytes (R13). -/
def RequestsMeet (c : SlotCfg) : Prop :=
  (1 ≤ c.startRequest.length ∧ c.startRequest.length ≤ 4) ∧
  1 ≤ c.readRequest.length ∧ c.readRequest.length ≤ 4

/-- Of the parts that `takeSlot` reads one after another only the two requests matter here. -/
theorem takeSlot_requests {q : Qty} {bs rest : List Byte} {c : SlotCfg}
    (h : takeSlot q bs = some (c, rest)) : RequestsMeet c := by
  obtain ⟨_, -, h⟩ := Option.bind_eq_some_iff.1 h
  obtain ⟨_, -, h⟩ := Option.bind_eq_some_iff.1 h
  obtain ⟨_, -, h⟩ := Option.bind_eq_some_iff.1 h
  obtain ⟨_, hs, h⟩ := Option.bind_eq_some_iff.1 h
  obtain ⟨_, -, h⟩ := Option.bind_eq_some_iff.1 h
  obtain ⟨_, hr, h⟩ := Option.bind_eq_some_iff.1 h
  obtain ⟨_, -, h⟩ := Option.bind_eq_some_iff.1 h
  obtain ⟨_, -, h⟩ := Option.bind_eq_some_iff.1 h
  obtain ⟨_, -, h⟩ := Option.bind_eq_some_iff.1 h
  obtain ⟨_, -, h⟩ := Option.bind_eq_some_iff.1 h
  obtain ⟨_, -, h⟩ := Option.bind_eq_some_iff.1 h
  obtain ⟨_, -, h⟩ := Option.bind_eq_some_iff.1 h
  cases h
  exact ⟨takeRequest_length hs, takeRequest_length hr⟩

theorem takeSlots_requests {bs rest : List Byte} {divide : Nat} {slots : PerQty SlotCfg}
    (h : takeSlots bs = some ((divide, slots), rest)) (q : Qty) : RequestsMeet (getQty slots q) := by
  simp only [takeSlots, Option.bind_eq_bind, Option.bind_eq_some_iff] at h
  obtain ⟨_, -, _, h1, _, h2, _, h3, _, h4, _, h5, h⟩ := h
  cases h
  cases q
  · exact takeSlot_requests h1
  · exact takeSlot_requests h2
  · exact takeSlot_requests h3
  · exact takeSlot_requests h4
  · exact takeSlot_requests h5

theorem takeImage_requests {bs : List Byte} {img : Image} (h : takeImage bs = some img) (q : Qty) :
    RequestsMeet (getQty img.slots q) := by
  simp only [takeImage, Option.bind_eq_bind, Option.bind_eq_some_iff] at h
  obtain ⟨_, -, _, -, _, -, _, -, _, -, _, -, _, -, _, -, ⟨⟨_, _⟩, _⟩, hs, h⟩ := h
  split at h <;> cases h
  obtain ⟨_, hs⟩ := takeRecord_content hs
  exact takeSlots_requests hs q

/-- Checks 3 and 6 of one slot. -/
theorem slotInRange_iff (q : Qty) (c : SlotCfg) : slotInRange q c = true ↔
    c.select ≤ 3 ∧ (1 ≤ c.conversionWait ∧ c.conversionWait ≤ 100) ∧
    (3 ≤ c.replyLength ∧ c.replyLength ≤ 4) ∧
    (qtyRange q).1 ≤ c.fallback ∧ c.fallback ≤ (qtyRange q).2 := by
  simp only [slotInRange, Bool.and_eq_true, within_iff, qtyInRange_iff, Nat.zero_le, true_and,
    and_assoc]

/-! ### The image -/

/-- An image that passes: its CRC is right, its records are those read, and its fields meet checks 3
to 7. -/
theorem checkImage_some {bytes : List Byte} {img : Image} (h : checkImage bytes = some img) :
    imageCrcOk bytes = true ∧
    takeImage ((bytes.take (bytes.length - 2)).drop 3) = some img ∧ imageFieldsOk img = true := by
  unfold checkImage at h
  split at h
  · next hcrc =>
    split at h
    · cases h
    · next i hi =>
      split at h <;> cases h
      exact ⟨hcrc, hi, ‹_›⟩
  · cases h

/-- Settles O9: `checkImage_some`, and each check as the condition it stands for. -/
theorem passingImageMeetsTheChecks : Obligations.PassingImageMeetsTheChecks := by
  intro bytes img h
  obtain ⟨hcrc, hread, hok⟩ := checkImage_some h
  simp only [imageFieldsOk, curvesInRange, lineTableOk, Bool.and_eq_true, decide_eq_true_eq, within_iff,
    List.contains_iff_mem, and_assoc] at hok
  obtain ⟨hst, hown1, hown2, htn1, htn2, hta, htd, hr1, hr2, hr3, hr4, hr5, hco, hdr, hper, hgr1, hgr2,
    hdeb1, hdeb2, hdiv1, hdiv2, hs1, hs2, hs3, hs4, hs5, hlen, hreq, hspare, hmode, hf1, hf2, hf3, hf4,
    hq1, hq2, hq3, hq4, hq5, hp, hfmin, h7⟩ := hok
  obtain ⟨hcycle, hstr⟩ := (stationInRange_iff _).1 hst
  obtain ⟨hdrr, hdew⟩ := dryerInRange_ranges hdr
  have hrest : InRanges [(1, img.ownAddress, 32), (5, img.grace, 120), (4, img.debounce, 64),
      (2, img.clockDivide, 256)] := by
    simp only [inRanges_cons, inRanges_nil, and_true]
    exact ⟨⟨hown1, hown2⟩, ⟨hgr1, hgr2⟩, ⟨hdeb1, hdeb2⟩, hdiv1, hdiv2⟩
  refine ⟨of_decide_eq_true hcrc, ⟨hcycle, hper⟩,
    ((hstr.append (compressorInRange_ranges hco h7)).append hdrr).append hrest, hdew,
    ⟨htn1, htn2, htd, fun a ha => (within_iff _ _ _).1 (List.all_eq_true.1 hta a ha)⟩, ?curves,
    ⟨hlen, fun r hr => of_decide_eq_true (List.all_eq_true.1 hreq r (mem_requiredRoles hr)), hspare,
      fun c hc => legalMode_cases (List.all_eq_true.1 hmode c hc)⟩, ?fitted, ?slots,
    ⟨rfl, rfl, rfl, rfl, rfl⟩, hp, by omega, by omega, h7⟩
  case curves =>
    intro c xlo xhi ylo yhi hc
    show CurveMeets c xlo xhi ylo yhi
    simp only [List.mem_cons, Prod.mk.injEq, List.not_mem_nil, or_false] at hc
    obtain ⟨rfl, rfl, rfl, rfl, rfl⟩ | ⟨rfl, rfl, rfl, rfl, rfl⟩ | ⟨rfl, rfl, rfl, rfl, rfl⟩ |
      ⟨rfl, rfl, rfl, rfl, rfl⟩ | ⟨rfl, rfl, rfl, rfl, rfl⟩ := hc
    · exact curveMeets_of_checks hr1 hs1
    · exact curveMeets_of_checks hr2 hs2
    · exact curveMeets_of_checks hr3 hs3
    · exact curveMeets_of_checks hr4 hs4
    · exact curveMeets_of_checks hr5 hs5
  case fitted =>
    intro q hq
    cases q
    · exact hf1
    · exact hf2
    · exact hf3
    · exact hf4
    · exact absurd rfl hq
  case slots =>
    intro q
    have hslot : slotInRange q (getQty img.slots q) = true := by
      cases q
      · exact hq1
      · exact hq2
      · exact hq3
      · exact hq4
      · exact hq5
    obtain ⟨hsel, ⟨hw1, hw2⟩, hrl, hfb1, hfb2⟩ := (slotInRange_iff q _).1 hslot
    obtain ⟨⟨ha1, ha2⟩, hb1, hb2⟩ := takeImage_requests hread q
    exact ⟨hfb1, hfb2, by omega, hsel, hw1, hw2, ha1, ha2, hb1, hb2⟩

end Sys2Proof.Machine
end

section
/-! Field lines: the debounce of a SENSE line and its delivery (R5, R6), the count of a COUNT line (R9), the
applied duty (R8), and what each pin of the part shows (R3, R4, R12, R203, R211). -/

namespace Sys2Proof.Machine

/-! ### Timers and lines -/

theorem isRunning_of_ne {t : Timer} (h : t ≠ .stopped) : t.isRunning = true := by
  cases t with
  | stopped => exact absurd rfl h
  | running ms => rfl

/-- A line's configured record is the image's at its place, the first line's at 0 (R204). -/
theorem lineCfg?_of_pos {n : Nat} (img : Image) (h : 1 ≤ n) : lineCfg? img n = img.lines[n - 1]? :=
  if_neg (by omega)

/-! ### Sensed lines -/

theorem senseRec_change {p : Polarity} {high : Bool} {r : LineRec} (debounce : Nat)
    (h : r.pinHigh ≠ high) : senseRec debounce p high r = { r with
      pinHigh := high
      stability := if logical p high = r.debounced then .stopped else .running debounce } := if_neg h

theorem senseLevelChange_sense {s : State} {n : Nat} {c : LineCfg} (high : Bool)
    (ha : s.active = true) (hc : lineCfg? s.cfg n = some c) (hm : c.mode = .sense) :
    senseLevelChange n high s = s.withLines (s.lines.setRec n
      (senseRec s.cfg.debounce c.polarity high (s.lines.lineRec n))) := by
  simp [senseLevelChange, ha, hc, hm]

/-- The expiry of a running stability timer at a raw level that differs from the debounced one: the
change is delivered (R5, R6). -/
theorem stabilityExpiry_change {s : State} {n : Nat} {c : LineCfg} (ha : s.active = true)
    (hc : lineCfg? s.cfg n = some c) (hm : c.mode = .sense)
    (hr : (s.lines.lineRec n).stability ≠ .stopped)
    (hl : logical c.polarity (s.lines.lineRec n).pinHigh ≠ (s.lines.lineRec n).debounced) :
    stabilityExpiry n s = deliverChange c.role (logical c.polarity (s.lines.lineRec n).pinHigh)
      (s.withLines (s.lines.setRec n { s.lines.lineRec n with
        debounced := logical c.polarity (s.lines.lineRec n).pinHigh, stability := .stopped })) := by
  simp [stabilityExpiry, whenActive, ha, hc, hm, isRunning_of_ne hr, hl]

/-- A change waits for the role's owner, where it has one that acts on it (R6; log 16). -/
theorem deliverChange_eq (role : Role) (lvl : Bool) (s : State) :
    deliverChange role lvl s = s.withInbox (if role = .spare ∨ (role = .clearIn ∧ lvl = false)
      then s.inbox else { s.inbox with lineChanges := s.inbox.lineChanges ++ [(role, lvl)] }) := by
  unfold deliverChange
  split <;> rfl

/-- The line that carries a role is the first whose configured record has it. -/
theorem lineOf?_first {img : Image} {n : Nat} {c : LineCfg} (hn : 1 ≤ n)
    (hc : lineCfg? img n = some c)
    (hfirst : ∀ m d, 1 ≤ m → m < n → lineCfg? img m = some d → d.role ≠ c.role) :
    lineOf? img c.role = some n := by
  rw [lineCfg?_of_pos img hn] at hc
  obtain ⟨hlt, hget⟩ := List.getElem?_eq_some_iff.1 hc
  have hfind : img.lines.findIdx? (fun d => decide (d.role = c.role)) = some (n - 1) := by
    refine List.findIdx?_eq_some_iff_getElem.2 ⟨hlt, by simp [hget], fun j hj hrole => ?_⟩
    refine hfirst (j + 1) _ (by omega) (by omega) ?_ (of_decide_eq_true hrole)
    rw [lineCfg?_of_pos img (by omega)]
    exact List.getElem?_eq_getElem _
  rw [lineOf?, hfind, Option.map_some, Nat.sub_add_cancel hn]

/-- Settles O11: `senseLevelChange_sense`, `stabilityExpiry_change` and `lineOf?_first`. -/
theorem sensedLinesAreDebouncedAndDelivered : Obligations.SensedLinesAreDebouncedAndDelivered := by
  refine ⟨fun n high c s ha h1 h24 hc hm hp => ?_, fun n c s ha h1 h24 hc hm hr hl => ?_,
    fun n c s hn hc hfirst => ?_⟩
  · refine (onLine_inside s _ h1 h24).trans (congrArg Host.Outcome.next ?_)
    rw [senseLevelChange_sense high ha hc hm, senseRec_change _ hp]
    rfl
  · refine (onLine_inside s _ h1 h24).trans (congrArg Host.Outcome.next ?_)
    rw [stabilityExpiry_change ha hc hm hr hl, deliverChange_eq]
    rfl
  · rw [State.level, lineOf?_first hn hc hfirst]

/-! ### Counted lines and the demand line -/

/-- One edge at a COUNT line (R9): to asserted it counts, held at 4095 with the over-range mark. -/
theorem countRec_edge {p : Polarity} {high : Bool} {r : LineRec} (h : r.pinHigh ≠ high) :
    countRec p high r = if logical p high = true then
        (if r.count < 4095 then { r with pinHigh := high, count := r.count + 1 }
        else { r with pinHigh := high, overRange := true })
      else { r with pinHigh := high } := if_neg h

theorem countEdge_count {s : State} {n : Nat} {c : LineCfg} (high : Bool) (ha : s.active = true)
    (hc : lineCfg? s.cfg n = some c) (hm : c.mode = .count) :
    countEdge n high s = s.withLines (s.lines.setRec n
      (countRec c.polarity high (s.lines.lineRec n))) := by
  simp [countEdge, ha, hc, hm]

/-! ### The pins of the field lines -/

/-- The station states in which the line table is in force (R4). -/
theorem pinDrive_inForce {s : State} (h : s.active = true ∨ s.startup.station = .duplicate)
    (n : Nat) : pinDrive s n = pinDrive.inForce s n := by
  rw [active_iff] at h
  unfold pinDrive
  obtain (h | h) | h := h <;> rw [h]

/-- In LOADING and CONFIG_FAULT no line table is in force (R4). -/
theorem pinDrive_noTable {s : State}
    (h : s.startup.station = .loading ∨ s.startup.station = .configFault) (n : Nat) :
    pinDrive s n = .highZ := by
  unfold pinDrive
  obtain h | h := h <;> rw [h]

/-- A line of another mode than PWM is driven by its applied state (R3, R7). -/
theorem pinDrive_driven {s : State} {n : Nat} {c : LineCfg}
    (h : s.active = true ∨ s.startup.station = .duplicate) (hc : lineCfg? s.cfg n = some c)
    (hm : c.mode ≠ .pwm) :
    pinDrive s n =
      driveLevel c.mode c.polarity (s.active && requestOf s.lines.requests c.role) := by
  rw [pinDrive_inForce h, pinDrive.inForce, hc]
  exact if_neg hm

/-- The PWM line with a duty applied (R8). -/
theorem pinDrive_pulse {s : State} {n : Nat} {c : LineCfg} (ha : s.active = true)
    (hc : lineCfg? s.cfg n = some c) (hm : c.mode = .pwm) (hd : 0 < s.lines.appliedDuty) :
    pinDrive s n = if c.polarity = .activeHigh then .pulseHigh s.lines.appliedDuty
      else .pulseLow s.lines.appliedDuty := by
  rw [pinDrive_inForce (.inl ha), pinDrive.inForce, hc]
  dsimp only
  rw [if_pos hm, if_pos ⟨ha, hd⟩]
  cases c.polarity <;> rfl

/-- The PWM line released: at a duty of 0, and in DUPLICATE (R8). -/
theorem pinDrive_noPulse {s : State} {n : Nat} {c : LineCfg}
    (h : (s.active = true ∧ s.lines.appliedDuty = 0) ∨ s.startup.station = .duplicate)
    (hc : lineCfg? s.cfg n = some c) (hm : c.mode = .pwm) :
    pinDrive s n = if c.polarity = .activeHigh then .low else .high := by
  have hoff : ¬(s.active = true ∧ 0 < s.lines.appliedDuty) := by
    rintro ⟨ha, hd⟩
    obtain ⟨-, hz⟩ | hdup := h
    · omega
    · simp [State.active, hdup] at ha
  rw [pinDrive_inForce (h.imp_left And.left), pinDrive.inForce, hc]
  dsimp only
  rw [if_pos hm, if_neg hoff]
  cases c.polarity <;> rfl

/-! ### The sensor line and the memory line -/

/-- A start or a read transaction under way is the one on the sensor line (R12). -/
theorem runningTransaction_some {sc : Scanner} {p : Pass} {x : Transaction} (hp : sc.pass = some p)
    (hx : p.phase = .starting x ∨ p.phase = .reading x) : runningTransaction sc = some x := by
  unfold runningTransaction
  rw [hp]
  obtain hx | hx := hx <;> simp [hx]

/-- No pass, or one in its conversion wait: no transaction (R12, R15). -/
theorem runningTransaction_none {sc : Scanner}
    (h : sc.pass = none ∨ ∃ p ms, sc.pass = some p ∧ p.phase = .waiting ms) :
    runningTransaction sc = none := by
  unfold runningTransaction
  obtain hp | ⟨p, ms, hp, hw⟩ := h
  · rw [hp]
  · rw [hp]
    simp [hw]

theorem clockedOut_sensor {s : State} {x : Transaction} (ha : s.active = true)
    (hx : runningTransaction s.scanner = some x) : clockedOut s = x.bytesOut := by
  simp [clockedOut, ha, hx]

theorem clockedOut_silent {s : State} (ha : s.active = true)
    (hx : runningTransaction s.scanner = none) : clockedOut s = [] := by
  simp [clockedOut, ha, hx]

theorem clockedOut_memory {s : State} (ha : s.active = false) (hc : s.startup.csel = true) :
    clockedOut s = s.startup.memoryOut := by
  simp [clockedOut, ha, hc]

theorem clockedOut_noMemory {s : State} (ha : s.active = false) (hc : s.startup.csel = false) :
    clockedOut s = [] := by
  simp [clockedOut, ha, hc]

theorem sckPeriod_sensor {s : State} {x : Transaction} (ha : s.active = true)
    (hx : runningTransaction s.scanner = some x) (i : Nat) :
    sckPeriod s i = clockFor s.cfg.clockDivide x.bytesOut.length i := by
  simp [sckPeriod, ha, hx]

theorem sckPeriod_silent {s : State} (ha : s.active = true)
    (hx : runningTransaction s.scanner = none) (i : Nat) : sckPeriod s i = none := by
  simp [sckPeriod, ha, hx]

theorem sckPeriod_memory {s : State} (ha : s.active = false) (hc : s.startup.csel = true) (i : Nat) :
    sckPeriod s i = clockFor 8 (memoryReadBytes s.startup.load) i := by
  simp [sckPeriod, ha, hc]

theorem sckPeriod_noMemory {s : State} (ha : s.active = false) (hc : s.startup.csel = false)
    (i : Nat) : sckPeriod s i = none := by
  simp [sckPeriod, ha, hc]

/-- SDO has no level where nothing is clocked out (log 34). -/
theorem sdoPin_nothing {s : State} (h : clockedOut s = []) (i : Nat) : sdoPin s i = none :=
  sdoPin_after (by simp [h])

/-- SDO and SCK during a transaction of the sensor line (R12). -/
theorem sensorLine_transaction {s : State} {x : Transaction} (ha : s.active = true)
    (hx : runningTransaction s.scanner = some x) :
    (∀ (j k : Nat) (b : Byte), x.bytesOut[j]? = some b → k < 8 →
      sdoPin s (8 * j + k) = some (b.getLsbD (7 - k)) ∧
      sckPeriod s (8 * j + k) = some s.cfg.clockDivide) ∧
    (∀ i : Nat, 8 * x.bytesOut.length ≤ i → sdoPin s i = none ∧ sckPeriod s i = none) := by
  have hout := clockedOut_sensor ha hx
  refine ⟨fun j k b hb hk => ⟨sdoPin_bit (hout ▸ hb) hk, ?_⟩, fun i hi => ⟨sdoPin_after (hout ▸ hi), ?_⟩⟩
  · have hj : j < x.bytesOut.length := (List.getElem?_eq_some_iff.1 hb).1
    exact (sckPeriod_sensor ha hx _).trans (if_pos (by omega))
  · exact (sckPeriod_sensor ha hx _).trans (if_neg (by omega))

/-- SDO and SCK during the memory read (R203). -/
theorem memoryLine_read {s : State} (ha : s.active = false) (hc : s.startup.csel = true) :
    (∀ (j k : Nat) (b : Byte), s.startup.memoryOut[j]? = some b → k < 8 →
      sdoPin s (8 * j + k) = some (b.getLsbD (7 - k))) ∧
    (∀ i : Nat, 8 * s.startup.memoryOut.length ≤ i → sdoPin s i = none) ∧
    (s.startup.load = .header → ∀ i : Nat, sckPeriod s i = if i < 8 * 6 then some 8 else none) ∧
    (∀ b0 b1 b2, s.startup.load = .body b0 b1 b2 → ∀ i : Nat,
      sckPeriod s i = if i < 8 * (3 + (b0.toNat * 256 + b1.toNat)) then some 8 else none) := by
  have hout := clockedOut_memory ha hc
  refine ⟨fun j k b hb hk => sdoPin_bit (hout ▸ hb) hk, fun i hi => sdoPin_after (hout ▸ hi),
    fun hl i => ?_, fun b0 b1 b2 hl i => ?_⟩
  · rw [sckPeriod_memory ha hc, hl]
    rfl
  · rw [sckPeriod_memory ha hc, hl, ← imageLength_eq]
    rfl

/-- LTX while a frame is in transmission (R20, R211): its bits in order, then recessive. -/
theorem ltxPin_frame {s : State} {bytes : List Byte} (h : s.link.sending = some bytes) :
    ltxPin s 0 = false ∧
    (∀ (i : Nat) (recessive : Bool), (lineBits bytes)[i]? = some recessive →
      ltxPin s i = recessive) ∧
    (∀ i : Nat, (lineBits bytes).length ≤ i → ltxPin s i = true) := by
  refine ⟨ltxPin_sending h 0, fun i recessive hi => ?_, fun i hi => ?_⟩
  · rw [ltxPin_sending h, List.getD_eq_getElem?_getD, hi, Option.getD_some]
  · rw [ltxPin_sending h, List.getD_eq_getElem?_getD, List.getElem?_eq_none hi, Option.getD_none]

theorem readyPin_low {s : State} (h : s.startup.station = .loading ∨ s.startup.station = .configFault ∨
    s.startup.station = .duplicate) : readyPin s = false := by
  unfold readyPin State.active
  obtain h | h | h := h <;> rw [h]

/-- Settles O12: the lemmas above, pin by pin. -/
theorem pulsesDutyAndPinsFollowTheLines : Obligations.PulsesDutyAndPinsFollowTheLines := by
  refine ⟨fun n high c s ha h1 h24 hc hm hp => ?count, fun s ha => ?duty,
    fun n s h => pinDrive_noTable h n, fun n c s h hc hm => ?ppDrive, fun n c s h hc hm => ?odDrive,
    fun n c s h hc hm => ?input, fun n c s ha hc hm hd => ?pulse, fun n c s h hc hm => ?noPulse,
    fun high => ⟨rfl, rfl⟩, fun d => ⟨rfl, rfl, rfl, rfl, rfl, rfl, rfl, rfl, rfl, rfl⟩,
    fun s => ⟨(readyPin_iff s).2, readyPin_low⟩, fun p x s hp hx n => ?select,
    fun s h n => ?noSelect, fun s => rfl,
    fun p x s ha hp hx => sensorLine_transaction ha (runningTransaction_some hp hx),
    fun s ha h i => ?silent, fun s ha hc => memoryLine_read ha hc,
    fun s ha hc i => ⟨sdoPin_nothing (clockedOut_noMemory ha hc) i, sckPeriod_noMemory ha hc i⟩,
    fun bytes s h => ltxPin_frame h, fun i s h => ltxPin_silent h i, rfl, rfl⟩
  case count =>
    refine (onLine_inside s _ h1 h24).trans (congrArg Host.Outcome.next ?_)
    rw [countEdge_count high ha hc hm, countRec_edge hp]
    rfl
  case duty => exact congrArg Host.Outcome.next (whenActive_on s _ ha)
  case ppDrive =>
    rw [pinDrive_driven h hc (by simp [hm]), hm]
    rfl
  case odDrive =>
    rw [pinDrive_driven h hc (by simp [hm]), hm]
    rfl
  case input =>
    obtain hm | hm := hm <;> rw [pinDrive_driven h hc (by simp [hm]), hm] <;> rfl
  case pulse =>
    rw [pinDrive_pulse ha hc hm hd]
    cases c.polarity <;> rfl
  case noPulse =>
    rw [pinDrive_noPulse h hc hm]
    cases c.polarity <;> rfl
  case select =>
    rw [selectPin_low, assertedSelect, runningTransaction_some hp hx]
    exact ⟨fun e => (Option.some.inj e).symm, fun e => congrArg some e.symm⟩
  case noSelect =>
    simp [selectPin, assertedSelect, runningTransaction_none h]
  case silent =>
    have hx := runningTransaction_none h
    exact ⟨sdoPin_nothing (clockedOut_silent ha hx) i, sckPeriod_silent ha hx i⟩

end Sys2Proof.Machine
end

section
/-! The Sensor Scanner: the pass slot by slot (R14, R15), the judgement of a reply (R16) and the quantity
record's update with its event (R17, R19). -/

namespace Sys2Proof.Machine

/-! ### The pass -/

/-- A pass starts with slot 1 where it is fitted, as a checked image has it (R14, check 6 of R205). -/
theorem scanExpiry_starts {s : State} (ha : s.active = true) (ht : s.scanner.timer ≠ .stopped)
    (hp : s.scanner.pass = none) (hf : s.cfg.slots.wellP.fitted = true) :
    scanExpiry s = s.withScanner { s.scanner with pass := some (beginSlot s.cfg .wellP false) } := by
  have hfirst : firstFitted s.cfg slotOrder = some .wellP := List.find?_cons_of_pos hf
  simp [scanExpiry, whenActive, ha, isRunning_of_ne ht, hp, hfirst]

/-- The first expiry during a pass is skipped with SCAN_OVERRUN (R14). -/
theorem scanExpiry_overruns {s : State} {p : Pass} (ha : s.active = true)
    (ht : s.scanner.timer ≠ .stopped) (hp : s.scanner.pass = some p) (hs : p.skipped = false) :
    scanExpiry s = post .scanOverrun (qtyId p.slot)
      (s.withScanner { s.scanner with pass := some { p with skipped := true } }) := by
  simp [scanExpiry, whenActive, ha, isRunning_of_ne ht, hp, hs]

/-- The later ones are skipped silently (R14). -/
theorem scanExpiry_skips {s : State} {p : Pass} (ha : s.active = true) (hp : s.scanner.pass = some p)
    (hs : p.skipped = true) : scanExpiry s = s := by
  simp [scanExpiry, whenActive, ha, hp, hs]

theorem startEnd_waits {s : State} {p : Pass} {x : Transaction} (ha : s.active = true)
    (hp : s.scanner.pass = some p) (hx : p.phase = .starting x) :
    startEnd s = s.withScanner { s.scanner with
      pass := some { p with phase := .waiting (getQty s.cfg.slots p.slot).conversionWait } } := by
  simp [startEnd, whenActive, ha, hp, hx]

theorem waitExpiry_reads {s : State} {p : Pass} {ms : Nat} (ha : s.active = true)
    (hp : s.scanner.pass = some p) (hx : p.phase = .waiting ms) :
    waitExpiry s = s.withScanner { s.scanner with
      pass := some { p with phase := .reading (readTransaction s.cfg p.slot) } } := by
  simp [waitExpiry, whenActive, ha, hp, hx]

/-- The read transaction of a slot, written out (R12, R15). -/
theorem readTransaction_eq (img : Image) (q : Qty) : readTransaction img q =
    { select := (getQty img.slots q).select
      bytesOut := (getQty img.slots q).readRequest ++
        List.replicate (getQty img.slots q).replyLength 0#8
      micros := ((getQty img.slots q).readRequest.length + (getQty img.slots q).replyLength + 1) *
        img.clockDivide } := by
  simp [readTransaction, transaction]

/-- Settles O13: the five lemmas above. -/
theorem scanPassGoesSlotBySlot : Obligations.ScanPassGoesSlotBySlot := by
  refine ⟨fun s ha ht hp hf => congrArg Host.Outcome.next (scanExpiry_starts ha ht hp hf),
    fun p s ha ht hp hs => congrArg Host.Outcome.next (scanExpiry_overruns ha ht hp hs),
    fun p s ha hp hs => congrArg Host.Outcome.next (scanExpiry_skips ha hp hs),
    fun p x s ha hp hx => congrArg Host.Outcome.next (startEnd_waits ha hp hx),
    fun p ms s ha hp hx => ?_⟩
  rw [← readTransaction_eq]
  exact congrArg Host.Outcome.next (waitExpiry_reads ha hp hx)

/-! ### Judging a reply -/

theorem beInt_two (a b : Byte) : beInt [a, b] = (a ++ b).toInt := by
  rw [beInt, beNat_two, toSigned, BitVec.toInt_eq_toNat_cond]
  simp only [List.length_cons, List.length_nil]
  split <;> split <;> omega

theorem judgeReply_eq (q : Qty) (c : SlotCfg) (b0 b1 b2 : Byte) (more : List Byte) :
    judgeReply q c (b0 :: b1 :: b2 :: more) =
      if b0 &&& c.statusMask = c.statusMatch ∧
          (qtyRange q).1 ≤ ((b1 ++ b2).toInt * c.gain).fdiv 1024 + c.offset ∧
          ((b1 ++ b2).toInt * c.gain).fdiv 1024 + c.offset ≤ (qtyRange q).2 then
        some (((b1 ++ b2).toInt * c.gain).fdiv 1024 + c.offset)
      else none := by
  rw [← beInt_two]
  by_cases hs : b0 &&& c.statusMask = c.statusMatch
  · simp [judgeReply, hs, qtyInRange_iff]
  · simp [judgeReply, hs]

/-! ### The quantity record (R17) -/

theorem getQty_setQty_same {α : Type} (p : PerQty α) (q : Qty) (x : α) :
    getQty (setQty p q x) q = x := by
  cases q <;> rfl

theorem getQty_setQty_other {α : Type} (p : PerQty α) {q r : Qty} (x : α) (h : r ≠ q) :
    getQty (setQty p q x) r = getQty p r := by
  cases q <;> cases r <;> first | rfl | exact absurd rfl h

/-- The state after a failed read (R17): FAILED from the third in a row on and in FAILED, else NONE stays
NONE, and GOOD and HELD become HELD. -/
theorem updateQty_failed_state (r : QtyRec) : (updateQty r none).state =
    if 3 ≤ r.fails + 1 ∨ r.state = .failed then .failed
    else if r.state = .none then .none else .held := by
  have hn : heldAt 3 (r.fails + 1) < 3 ↔ ¬3 ≤ r.fails + 1 := by
    unfold heldAt
    omega
  unfold updateQty
  by_cases h3 : 3 ≤ r.fails + 1 <;> cases r.state <;> simp [hn, h3]

/-- A good read posts QUANTITY_RESTORED where the record was FAILED (R17). -/
theorem qtyEvents_good (q : Qty) (before : QState) : qtyEvents q before .good =
    if before = .failed then [(.quantityRestored, qtyId q)] else [] := by
  cases before <;> rfl

/-- A failed read posts QUANTITY_FAILED where the record becomes FAILED (R17). -/
theorem qtyEvents_failed (q : Qty) (r : QtyRec) :
    qtyEvents q r.state (updateQty r none).state =
      if 3 ≤ r.fails + 1 ∧ r.state ≠ .failed then [(.quantityFailed, qtyId q)] else [] := by
  rw [updateQty_failed_state]
  by_cases h3 : 3 ≤ r.fails + 1 <;> cases r.state <;> simp [qtyEvents, h3]

/-! ### Taking a reading -/

/-- The record of a quantity after a reply of its slot (R16, R17). -/
def judgedRec (q : Qty) (reply : List Byte) (s : State) : QtyRec :=
  updateQty (s.qty q) (judgeReply q (getQty s.cfg.slots q) reply)

theorem judgedRec_good {q : Qty} {reply : List Byte} {s : State} {v : Int}
    (h : judgeReply q (getQty s.cfg.slots q) reply = some v) :
    judgedRec q reply s = { value := v, state := .good, fails := 0, lastGood := some v } := by
  rw [judgedRec, h]
  rfl

theorem judgedRec_failed {q : Qty} {reply : List Byte} {s : State}
    (h : judgeReply q (getQty s.cfg.slots q) reply = none) :
    judgedRec q reply s = updateQty (s.qty q) none := by
  rw [judgedRec, h]

theorem takeReading_scanner (q : Qty) (reply : List Byte) (s : State) :
    (takeReading q reply s).scanner = { s.scanner with
      quantities := setQty s.scanner.quantities q (judgedRec q reply s) } := by
  simp only [takeReading, deliverDew]
  split
  · simp [judgedRec]
  · simp [judgedRec]

theorem takeReading_events (q : Qty) (reply : List Byte) (s : State) :
    (takeReading q reply s).events =
      (postAll (qtyEvents q (s.qty q).state (judgedRec q reply s).state) s).events := by
  simp only [takeReading, deliverDew]
  split
  · exact postAll_events_congr _ _ _ rfl rfl
  · exact postAll_events_congr _ _ _ rfl rfl

/-- An update of DEW_OUT is delivered, with the state and the value it leaves (R19). -/
theorem takeReading_inbox (q : Qty) (reply : List Byte) (s : State) :
    (takeReading q reply s).inbox = if q = .dewOut then { s.inbox with
      dewUpdates := s.inbox.dewUpdates ++ [((judgedRec q reply s).state, (judgedRec q reply s).value)] }
    else s.inbox := by
  simp only [takeReading, deliverDew]
  split
  · simp [judgedRec]
  · simp

theorem takeReading_cfg (q : Qty) (reply : List Byte) (s : State) :
    (takeReading q reply s).cfg = s.cfg := (takeReading_keeps q reply s).cfg (by decide)

/-! ### The end of a read transaction -/

theorem readEnd_reply {s : State} {p : Pass} {x : Transaction} {reply : List Byte}
    (ha : s.active = true) (hp : s.scanner.pass = some p) (hx : p.phase = .reading x)
    (hn : reply.length = (getQty s.cfg.slots p.slot).replyLength) :
    readEnd reply s = nextSlot p (takeReading p.slot reply s) := by
  simp [readEnd, whenActive, ha, hp, hx, hn]

theorem readEnd_qty_same {s : State} (p : Pass) (reply : List Byte) :
    (nextSlot p (takeReading p.slot reply s)).qty p.slot = judgedRec p.slot reply s := by
  show getQty (takeReading p.slot reply s).scanner.quantities p.slot = _
  rw [takeReading_scanner]
  exact getQty_setQty_same _ _ _

theorem readEnd_qty_other {s : State} {p : Pass} {q : Qty} (reply : List Byte) (h : q ≠ p.slot) :
    (nextSlot p (takeReading p.slot reply s)).qty q = s.qty q := by
  show getQty (takeReading p.slot reply s).scanner.quantities q = _
  rw [takeReading_scanner]
  exact getQty_setQty_other _ _ h

theorem readEnd_pass {s : State} (p : Pass) (reply : List Byte) :
    (nextSlot p (takeReading p.slot reply s)).scanner.pass =
      (firstFitted s.cfg (slotsAfter p.slot)).map (fun q => beginSlot s.cfg q p.skipped) := by
  show (firstFitted (takeReading p.slot reply s).cfg _).map
    (fun q => beginSlot (takeReading p.slot reply s).cfg q p.skipped) = _
  rw [takeReading_cfg]

/-- The next slot in order, where it is fitted, is the next fitted slot (R13, R15). -/
theorem firstFitted_next {img : Image} {q r : Qty}
    (h : (q, r) ∈ [(Qty.wellP, Qty.wellT), (Qty.wellT, Qty.lineP), (Qty.lineP, Qty.dewOut),
      (Qty.dewOut, Qty.regenT)]) (hf : (getQty img.slots r).fitted = true) :
    firstFitted img (slotsAfter q) = some r := by
  simp only [List.mem_cons, Prod.mk.injEq, List.not_mem_nil, or_false] at h
  obtain ⟨rfl, rfl⟩ | ⟨rfl, rfl⟩ | ⟨rfl, rfl⟩ | ⟨rfl, rfl⟩ := h <;> exact List.find?_cons_of_pos hf

/-- The pass ends after DEW_OUT where slot 5 is not fitted (R15). -/
theorem firstFitted_afterDew {img : Image} (hf : img.slots.regenT.fitted = false) :
    firstFitted img (slotsAfter .dewOut) = none :=
  List.find?_cons_of_neg (by simpa [getQty] using hf)

/-- The record and the event of a good read (R17). -/
theorem readEnd_good {s : State} {p : Pass} {reply : List Byte} {v : Int}
    (h : judgeReply p.slot (getQty s.cfg.slots p.slot) reply = some v) :
    (nextSlot p (takeReading p.slot reply s)).qty p.slot =
        { value := v, state := .good, fails := 0, lastGood := some v } ∧
    (nextSlot p (takeReading p.slot reply s)).events =
      (if (s.qty p.slot).state = .failed then post .quantityRestored (qtyId p.slot) s
        else s).events := by
  refine ⟨(readEnd_qty_same p reply).trans (judgedRec_good h), ?_⟩
  show (takeReading p.slot reply s).events = _
  rw [takeReading_events, judgedRec_good h, qtyEvents_good]
  split <;> rfl

/-- The record and the event of a failed read (R17). -/
theorem readEnd_failed {s t : State} {p : Pass} {reply : List Byte}
    (ht : t = nextSlot p (takeReading p.slot reply s))
    (h : judgeReply p.slot (getQty s.cfg.slots p.slot) reply = none) :
    (t.qty p.slot).value = (s.qty p.slot).value ∧
    (t.qty p.slot).lastGood = (s.qty p.slot).lastGood ∧
    (t.qty p.slot).fails = min 3 ((s.qty p.slot).fails + 1) ∧
    ((s.qty p.slot).fails + 1 < 3 → (s.qty p.slot).state = .none → (t.qty p.slot).state = .none) ∧
    ((s.qty p.slot).fails + 1 < 3 → (s.qty p.slot).state = .good ∨ (s.qty p.slot).state = .held →
      (t.qty p.slot).state = .held) ∧
    (3 ≤ (s.qty p.slot).fails + 1 ∨ (s.qty p.slot).state = .failed →
      (t.qty p.slot).state = .failed) ∧
    t.events = (if 3 ≤ (s.qty p.slot).fails + 1 ∧ (s.qty p.slot).state ≠ .failed then
      post .quantityFailed (qtyId p.slot) s else s).events := by
  have hq : t.qty p.slot = updateQty (s.qty p.slot) none := by
    rw [ht, readEnd_qty_same, judgedRec_failed h]
  have he : t.events = (takeReading p.slot reply s).events := by rw [ht]; rfl
  rw [hq, updateQty_failed_state]
  refine ⟨rfl, rfl, rfl, fun h3 hs => ?_, fun h3 hs => ?_, fun hs => if_pos hs, ?_⟩
  · have h3 : ¬3 ≤ (s.qty p.slot).fails + 1 := by omega
    simp [hs, h3]
  · have h3 : ¬3 ≤ (s.qty p.slot).fails + 1 := by omega
    obtain hs | hs := hs <;> simp [hs, h3]
  · rw [he, takeReading_events, judgedRec_failed h, qtyEvents_failed]
    split <;> rfl

/-- Settles O14: `judgeReply_eq`, and the state after `readEnd_reply` part by part. -/
theorem readEndJudgesAndUpdatesTheQuantity : Obligations.ReadEndJudgesAndUpdatesTheQuantity := by
  refine ⟨judgeReply_eq, fun p x reply s ha hp hx hn =>
    ⟨_, congrArg Host.Outcome.next (readEnd_reply ha hp hx hn), fun v hv => readEnd_good hv,
      fun hf => readEnd_failed rfl hf, fun q hq => readEnd_qty_other reply hq, ?timer, fun hs => ?last,
      fun q hq hf => ?next, fun hs hf => ?dew, ?inbox, ?frame⟩⟩
  case timer =>
    show (takeReading p.slot reply s).scanner.timer = _
    rw [takeReading_scanner]
  case last =>
    rw [readEnd_pass, hs]
    rfl
  case next =>
    rw [readEnd_pass, firstFitted_next hq hf]
    rfl
  case dew =>
    rw [readEnd_pass, hs, firstFitted_afterDew hf]
    rfl
  case inbox =>
    refine (takeReading_inbox p.slot reply s).trans ?_
    by_cases hs : p.slot = .dewOut
    · have hd := readEnd_qty_same (s := s) p reply
      rw [hs] at hd
      rw [if_pos hs, if_pos hs, hs, hd]
    · rw [if_neg hs, if_neg hs]
  case frame => exact readEnd_reply ha hp hx hn ▸ readEnd_keeps reply s

end Sys2Proof.Machine
end

section
/-! The Query Responder: the bytes of each REPORT (R41, R43, R198 to R201), the levels of a LINES REPORT (R11),
and the offer of the reply (R35, R197). -/

namespace Sys2Proof.Machine

/-! ### Codes and one-byte fields -/

theorem qtyOf_eq_some_iff (id : Nat) (q : Qty) : qtyOf id = some q ↔
    (id, q) ∈ [(1, Qty.wellP), (2, .wellT), (3, .lineP), (4, .dewOut), (5, .regenT)] := by
  unfold qtyOf
  split <;> simp_all [eq_comm]

theorem qtyId_of_qtyOf {id : Nat} {q : Qty} (h : qtyOf id = some q) : qtyId q = id := by
  rw [qtyOf_eq_some_iff] at h
  simp only [List.mem_cons, Prod.mk.injEq, List.not_mem_nil, or_false] at h
  obtain ⟨rfl, rfl⟩ | ⟨rfl, rfl⟩ | ⟨rfl, rfl⟩ | ⟨rfl, rfl⟩ | ⟨rfl, rfl⟩ := h <;> rfl

/-- A one-byte field that holds its value (R37). -/
theorem putU_byte {n : Nat} (h : n < 256) : putU 1 n = [BitVec.ofNat 8 n] := by
  have hs : satU (8 * 1) n = n := by
    unfold satU
    omega
  rw [putU, hs]
  simp [bytesOf]

/-- A NOT_FOUND report: selector, mark byte, echo, and zeros to its length (R41, R201). -/
theorem notFoundPayload_eq {selector marks len : Nat} {echo : List Byte} (k : Nat)
    (hs : selector < 256) (hm : marks < 128) (hk : len = 2 + echo.length + k) :
    notFoundPayload selector marks len echo =
      [BitVec.ofNat 8 selector, BitVec.ofNat 8 (128 + marks)] ++ echo ++ List.replicate k 0#8 := by
  have hlen : len - ([BitVec.ofNat 8 selector, BitVec.ofNat 8 (128 + marks)] ++ echo).length = k := by
    simp only [List.length_append, List.length_cons, List.length_nil]
    omega
  have hhead : putU 1 selector ++ putU 1 (notFoundMark + marks : Nat) ++ echo =
      [BitVec.ofNat 8 selector, BitVec.ofNat 8 (128 + marks)] ++ echo := by
    rw [putU_byte hs, putU_byte (n := notFoundMark + marks) (by unfold notFoundMark; omega)]
    rfl
  rw [notFoundPayload, ← Nat.cast_add, hhead, hlen]

theorem tableRoleCode_lt (role : TableRole) : tableRoleCode role < 4 := by cases role <;> decide

theorem peerStateCode_lt (st : PeerState) : peerStateCode st < 256 := by cases st <;> decide

theorem qStateCode_lt (st : QState) : qStateCode st < 256 := by cases st <;> decide

theorem bitValue_le (b : Bool) (v : Nat) : bitValue b v ≤ v := by cases b <;> simp [bitValue]

theorem entryMark_lt (role : TableRole) (e : Entry) : entryMark role e < 256 := by
  have := tableRoleCode_lt role
  have := bitValue_le e.nomination.isSome 4
  have := bitValue_le e.curtailed 8
  unfold entryMark
  omega

theorem stationMark_lt (s : State) : stationMark s < 256 := by
  have hd (st : DirState) (f : Flow) : dirCode st f ≤ 7 := by cases st <;> cases f <;> decide
  have hs (st : Station) : stationCode st ≤ 4 := by cases st <;> decide
  have := hd s.direction.state s.direction.remembered
  have := hs s.startup.station
  unfold stationMark
  omega

theorem towerStates_lt (d : Dryer) : towerStates d < 256 := by
  have ht (st : TowerState) : towerStateCode st ≤ 5 := by cases st <;> decide
  have := ht d.a.state
  have := ht d.b.state
  unfold towerStates
  omega

/-! ### The replies -/

theorem accountReply_found {s : State} {code i : Nat} (h : lookup s.accounts code = some i) :
    accountReply code s = [1#8, 0#8] ++ putU 2 (s.accounts.acc i).code ++
      putS 6 (acc64 ((s.accounts.acc i).opening + (s.accounts.acc i).net)) ++
      putS 6 (s.accounts.acc i).net ++ putU 4 (s.accounts.acc i).fuel ++
      putU 4 (s.accounts.acc i).offSpec := by
  rw [accountReply, h]
  rfl

theorem accountReply_notFound {s : State} {code : Nat} (h : lookup s.accounts code = none) :
    accountReply code s = [1#8, 0x80#8] ++ putU 2 code ++ List.replicate 20 0#8 := by
  rw [accountReply, h]
  exact notFoundPayload_eq 20 (by decide) (by decide) (by simp)

theorem entryReply_found {s : State} {role : TableRole} {code i : Nat}
    (h : lookup s.accounts code = some i) :
    entryReply role code s =
      [2#8, BitVec.ofNat 8 (entryMark role (s.accounts.entry (s.accounts.roleOf role) i))] ++
        putU 2 code ++ entryColumns (s.accounts.entry (s.accounts.roleOf role) i) := by
  rw [entryReply, h]
  dsimp only
  rw [entryPayload, putU_byte (entryMark_lt _ _)]
  rfl

theorem entryReply_notFound {s : State} {role : TableRole} {code : Nat}
    (h : lookup s.accounts code = none) :
    entryReply role code s = [2#8, BitVec.ofNat 8 (0x80 + tableRoleCode role)] ++ putU 2 code ++
      List.replicate 18 0#8 := by
  have := tableRoleCode_lt role
  rw [entryReply, h]
  exact notFoundPayload_eq 18 (by decide) (by omega) (by simp)

theorem peerReply_found {s : State} {address : Nat} (h : 1 ≤ address ∧ address ≤ 32) :
    peerReply address s =
      [3#8, BitVec.ofNat 8 (peerStateCode (peerRec s.roster address).state)] ++ putU 1 address ++
        statusPayload (peerRec s.roster address).last := by
  rw [peerReply, if_pos h, peerPayload, putU_byte (peerStateCode_lt _)]
  rfl

theorem peerReply_notFound {s : State} {address : Nat} (h : ¬(1 ≤ address ∧ address ≤ 32)) :
    peerReply address s = [3#8, 0x80#8] ++ putU 1 address ++ List.replicate 21 0#8 := by
  rw [peerReply, if_neg h]
  exact notFoundPayload_eq 21 (by decide) (by decide) (by simp)

theorem quantityReply_found {s : State} {id : Nat} {q : Qty} (h : qtyOf id = some q) :
    quantityReply id s =
      [4#8, BitVec.ofNat 8 (qStateCode (s.qty q).state)] ++ putU 1 id ++ putS 2 (s.qty q).value := by
  rw [quantityReply, h]
  dsimp only
  rw [quantityPayload, putU_byte (qStateCode_lt _), qtyId_of_qtyOf h]
  rfl

theorem quantityReply_notFound {s : State} {id : Nat} (h : qtyOf id = none) :
    quantityReply id s = [4#8, 0x80#8] ++ putU 1 id ++ [0#8, 0#8] := by
  rw [quantityReply, h]
  exact notFoundPayload_eq 2 (by decide) (by decide) (by simp)

theorem stationReply_eq (s : State) : stationReply s =
    [6#8, BitVec.ofNat 8 (stationMark s)] ++ putU 3 s.direction.r ++ putS 3 s.share.q ++
      putS 4 (inventorySm3 s) ++ putU 3 (runHours s.compressor.u1) ++
      putU 3 (runHours s.compressor.u2) ++ [BitVec.ofNat 8 (towerStates s.dryer)] ++
      putU 2 (loadUnits s.dryer.a) ++ putU 2 (loadUnits s.dryer.b) := by
  rw [stationReply, putU_byte (stationMark_lt s), putU_byte (towerStates_lt _)]
  rfl

/-! ### The levels of a LINES report -/

/-- Bits read one after another as a number, the first one most significant. -/
def bitsNat (bs : List Bool) : Nat := bs.foldl (fun acc b => acc * 2 + bitValue b 1) 0

theorem bitsNat_concat (bs : List Bool) (b : Bool) :
    bitsNat (bs ++ [b]) = bitsNat bs * 2 + bitValue b 1 := by simp [bitsNat]

theorem bitsNat_lt (bs : List Bool) : bitsNat bs < 2 ^ bs.length := by
  induction bs using List.reverseRecOn with
  | nil => decide
  | append_singleton bs b ih =>
    have := bitValue_le b 1
    rw [bitsNat_concat, List.length_append, List.length_singleton, Nat.pow_succ]
    omega

/-- Bit `k` from the front is the bit of weight `length - 1 - k`. -/
theorem bitsNat_testBit (bs : List Bool) (k : Nat) (hk : k < bs.length) :
    (bitsNat bs).testBit (bs.length - 1 - k) = bs.getD k false := by
  induction bs using List.reverseRecOn with
  | nil => cases hk
  | append_singleton bs b ih =>
    rw [List.length_append, List.length_singleton] at hk ⊢
    rw [bitsNat_concat, Nat.add_sub_cancel]
    obtain hlt | heq : k < bs.length ∨ k = bs.length := by omega
    · have hdiv : (bitsNat bs * 2 + bitValue b 1) / 2 = bitsNat bs := by
        have hb : bitValue b 1 < 2 := by cases b <;> decide
        omega
      rw [show bs.length - k = bs.length - 1 - k + 1 by omega, Nat.testBit_succ, hdiv, ih hlt,
        List.getD_append _ _ _ _ hlt]
    · subst heq
      rw [Nat.sub_self, List.getD_append_right _ _ _ _ (Nat.le_refl _), Nat.sub_self]
      cases b <;> simp [bitValue, Nat.testBit_zero]

theorem levelsByte_eq (ls : List Bool) : levelsByte ls = bitsNat (ls.take 8) := rfl

theorem levelsByte_lt (ls : List Bool) : levelsByte ls < 256 := by
  have hlen : (ls.take 8).length ≤ 8 := List.length_take_le 8 ls
  calc levelsByte ls < 2 ^ (ls.take 8).length := bitsNat_lt _
    _ ≤ 2 ^ 8 := Nat.pow_le_pow_right (by decide) hlen

/-- The first of eight levels stands in the byte's first bit, the last in its last (R41). -/
theorem levelsByte_getLsbD {ls : List Bool} {k : Nat} (hk : k < 8) (hl : 8 ≤ ls.length) :
    (BitVec.ofNat 8 (levelsByte ls)).getLsbD (7 - k) = ls.getD k false := by
  have hlen : (ls.take 8).length = 8 := by rw [List.length_take]; omega
  have hbit := bitsNat_testBit (ls.take 8) k (by omega)
  rw [hlen] at hbit
  rw [BitVec.getLsbD_ofNat, levelsByte_eq, hbit, List.getD_eq_getElem?_getD,
    List.getElem?_take_of_lt hk, ← List.getD_eq_getElem?_getD]
  simp only [Bool.and_eq_right_iff_imp, decide_eq_true_eq]
  omega

/-- The three level bytes of a LINES report. -/
def levelBytes (ls : List Bool) : List Byte :=
  [BitVec.ofNat 8 (levelsByte ls), BitVec.ofNat 8 (levelsByte (ls.drop 8)),
    BitVec.ofNat 8 (levelsByte (ls.drop 16))]

theorem linesReply_eq (s : State) :
    linesReply s = [5#8, 0#8] ++ levelBytes (reportedLevels s) := by
  rw [linesReply, linesPayload, putU_byte (levelsByte_lt _), putU_byte (levelsByte_lt _),
    putU_byte (levelsByte_lt _)]
  rfl

theorem levelBytes_getD (ls : List Bool) {j : Nat} (hj : j < 3) :
    (levelBytes ls).getD j 0#8 = BitVec.ofNat 8 (levelsByte (ls.drop (8 * j))) := by
  interval_cases j <;> rfl

theorem reportedLevels_getD (s : State) {i : Nat} (hi : i < 24) :
    (reportedLevels s).getD i false = reportedLevel s (i + 1) := by
  simp [reportedLevels, List.getD_eq_getElem?_getD, List.getElem?_range hi]

/-- Line `n` stands in byte `(n - 1) / 8` of the three, at place `(n - 1) % 8` (R11, R41). -/
theorem levelBytes_line (s : State) {n : Nat} (h1 : 1 ≤ n) (h24 : n ≤ 24) :
    ((levelBytes (reportedLevels s)).getD ((n - 1) / 8) 0#8).getLsbD (7 - (n - 1) % 8) =
      reportedLevel s n := by
  have hlen : (reportedLevels s).length = 24 := by simp [reportedLevels]
  have hplace : 8 * ((n - 1) / 8) + (n - 1) % 8 = n - 1 := Nat.div_add_mod _ _
  rw [levelBytes_getD _ (by omega),
    levelsByte_getLsbD (Nat.mod_lt _ (by decide)) (by rw [List.length_drop]; omega),
    List.getD_eq_getElem?_getD, List.getElem?_drop, hplace, ← List.getD_eq_getElem?_getD,
    reportedLevels_getD s (by omega), Nat.sub_add_cancel h1]

/-! ### Taking a QUERY -/

theorem offerReport_eq (selector : Nat) (p : List Byte) (s : State) :
    offerReport selector p s = if s.link.queue.length ≤ 6 then s.withLink (enqueueFrame .report p s.link)
      else post .queryDropped selector s := by
  simp only [offerReport, mayAdmit, decide_eq_true_eq]
  rfl

/-- A query whose reply this step gives is taken, and its REPORT is admitted at a queue of 6 frames or
fewer, else dropped (R33, R35, R197). -/
theorem takeQuery_offers {s : State} {f : RxFrame} {rest : List RxFrame} {q : Query}
    {reply : Query → Option (State → List Byte)} {form : State → List Byte} {report : List Byte}
    (ha : s.active = true) (ht : takeFrame .queryResponder s.link.buffers = some (f, rest))
    (hb : f.body = .query q) (hr : reply q = some form)
    (hf : form (s.withLink { s.link with buffers := rest }) = report) :
    takeQuery s reply = if s.link.queue.length ≤ 6 then
        { s with link := { s.link with
          buffers := rest
          queue := s.link.queue ++
            [{ kind := .report, payload := report, collisions := 0, backoff := false }] } }
      else post .queryDropped (selectorCode q) { s with link := { s.link with buffers := rest } } := by
  subst hf
  unfold takeQuery
  rw [takeBy_some _ s _ f rest (fun t => offerReport (selectorCode q) (form t) t) ha ht
    (by simp [hb, hr])]
  exact offerReport_eq _ _ _

/-- Settles O55: `takeQuery_offers` with the bytes of each reply. -/
theorem queriesAreAnsweredOrDropped : Obligations.QueriesAreAnsweredOrDropped := by
  refine ⟨⟨fun f => by cases f <;> rfl, rfl, rfl, rfl, rfl, rfl, rfl, rfl, qtyOf_eq_some_iff⟩, ?_⟩
  intro f rest s ha ht offered
  refine ⟨fun code hb => ?account, fun role code hb => ?entry, fun address hb => ?peer,
    fun id hb => ?quantity, fun hb => ?lines, fun hb => ?station⟩
  case account =>
    refine congrArg Host.Outcome.next (takeQuery_offers ha ht hb rfl ?_)
    cases hl : lookup s.accounts code with
    | some i => exact accountReply_found hl
    | none => exact accountReply_notFound hl
  case entry =>
    refine congrArg Host.Outcome.next (takeQuery_offers ha ht hb rfl ?_)
    cases hl : lookup s.accounts code with
    | some i =>
      refine (entryReply_found hl).trans ?_
      simp only [entryColumns, List.append_assoc]
      rfl
    | none => exact entryReply_notFound hl
  case peer =>
    refine congrArg Host.Outcome.next (takeQuery_offers ha ht hb rfl ?_)
    by_cases hp : 1 ≤ address ∧ address ≤ 32
    · exact (peerReply_found hp).trans (if_pos hp).symm
    · exact (peerReply_notFound hp).trans (if_neg hp).symm
  case quantity =>
    refine congrArg Host.Outcome.next (takeQuery_offers ha ht hb rfl ?_)
    cases hq : qtyOf id with
    | some q => exact quantityReply_found hq
    | none => exact quantityReply_notFound hq
  case lines =>
    refine ⟨_, _, _, congrArg Host.Outcome.next (takeQuery_offers ha ht hb rfl (linesReply_eq _)),
      fun n c h1 h24 hc => (levelBytes_line s h1 h24).trans ?_⟩
    rw [reportedLevel, hc]
    dsimp only
    cases c.mode <;> simp [appliedState, ha]
  case station =>
    exact congrArg Host.Outcome.next (takeQuery_offers ha ht hb rfl (stationReply_eq _))

end Sys2Proof.Machine
end

section
/-! The transmit queue as a list (R31 to R33): what keeps it sound, and with it every step of the Link
Controller. -/

namespace Sys2Proof.Machine

/-! ### A sound transmit queue -/

/-- The queue's part of `LinkSound`: 8 frames, one STATUS, 7 others, fewer than 16 collisions each. -/
def QueueSound (q : List TxFrame) : Prop :=
  q.length ≤ 8 ∧
  (q.filter (fun f => decide (f.kind = .status))).length ≤ 1 ∧
  (q.filter (fun f => decide (f.kind ≠ .status))).length ≤ 7 ∧
  ∀ f ∈ q, f.collisions < 16

theorem linkSound_iff (l : Link) : LinkSound l ↔ QueueSound l.queue ∧ l.buffers.length ≤ 2 ∧
    (l.sending ≠ none → l.queue ≠ []) ∧ (l.hold ≠ none → statusInTransmission l = true) := by
  simp only [LinkSound, QueueSound, and_assoc]

/-- Every frame is a STATUS or another. -/
theorem length_eq_kinds (q : List TxFrame) :
    q.length = (q.filter (fun f => decide (f.kind = .status))).length +
      (q.filter (fun f => decide (f.kind ≠ .status))).length := by
  simpa using List.length_eq_length_filter_add (l := q) (fun f => decide (f.kind = .status))

/-- A STATUS at the tail of a queue without one: the 7 others leave it a place (R32, R33). -/
theorem QueueSound.append_status {q : List TxFrame} (h : QueueSound q)
    (hn : q.filter (fun f => decide (f.kind = .status)) = []) (p : List Byte) :
    QueueSound (q ++ [newFrame .status p]) := by
  obtain ⟨-, -, h7, hc⟩ := h
  have hlen := length_eq_kinds q
  rw [hn, List.length_nil, Nat.zero_add] at hlen
  refine ⟨?_, ?_, ?_, List.forall_mem_append.2 ⟨hc, by simp [newFrame]⟩⟩
  · rw [List.length_append]
    exact Nat.succ_le_succ (hlen ▸ h7)
  · rw [List.filter_append, hn]
    exact Nat.le_refl 1
  · rw [List.filter_append]
    simpa [newFrame] using h7

/-- A REPORT or EVENT at the tail of a queue of 6 frames or fewer (R33). -/
theorem QueueSound.append_feeder {q : List TxFrame} (h : QueueSound q) (h6 : q.length ≤ 6)
    {kind : TxKind} (hk : kind ≠ .status) (p : List Byte) : QueueSound (q ++ [newFrame kind p]) := by
  obtain ⟨-, h1, -, hc⟩ := h
  refine ⟨?_, ?_, ?_, List.forall_mem_append.2 ⟨hc, by simp [newFrame]⟩⟩
  · rw [List.length_append]
    exact Nat.succ_le_succ (h6.trans (by decide))
  · rw [List.filter_append]
    simpa [newFrame, hk] using h1
  · calc _ ≤ (q ++ [newFrame kind p]).length := List.length_filter_le _ _
      _ ≤ 7 := by rw [List.length_append]; exact Nat.succ_le_succ h6

/-- The head leaves (R31). -/
theorem QueueSound.tail {f : TxFrame} {q : List TxFrame} (h : QueueSound (f :: q)) : QueueSound q := by
  obtain ⟨h8, h1, h7, hc⟩ := h
  have sub : q.Sublist (f :: q) := List.sublist_cons_self f q
  exact ⟨sub.length_le.trans h8, (sub.filter _).length_le.trans h1, (sub.filter _).length_le.trans h7,
    fun g hg => hc g (List.mem_cons_of_mem _ hg)⟩

/-- Behind a STATUS at the head no other STATUS waits. -/
theorem QueueSound.noStatus_of_head {f : TxFrame} {q : List TxFrame} (h : QueueSound (f :: q))
    (hf : f.kind = .status) : q.filter (fun g => decide (g.kind = .status)) = [] := by
  have h1 := h.2.1
  rw [List.filter_cons_of_pos (by simpa using hf), List.length_cons] at h1
  exact List.eq_nil_of_length_eq_zero (by omega)

/-- The head changed, but for its kind. -/
theorem QueueSound.setHead {f g : TxFrame} {q : List TxFrame} (h : QueueSound (f :: q))
    (hk : g.kind = f.kind) (hc : g.collisions < 16) : QueueSound (g :: q) := by
  obtain ⟨h8, h1, h7, h16⟩ := h
  refine ⟨h8, ?_, ?_, fun x hx => ?_⟩
  · simpa only [List.filter_cons, hk, apply_ite List.length, List.length_cons] using h1
  · simpa only [List.filter_cons, hk, apply_ite List.length, List.length_cons] using h7
  · obtain rfl | hx := List.mem_cons.1 hx
    · exact hc
    · exact h16 x (List.mem_cons_of_mem _ hx)

/-! ### `replaceStatus` (R32) -/

/-- A STATUS at the head is the one replaced. -/
theorem replaceStatus_head {f : TxFrame} (hf : f.kind = .status) (p : List Byte) (q : List TxFrame) :
    replaceStatus p (f :: q) =
      { f with payload := carryOverrun f.payload p, collisions := 0 } :: q := if_pos hf

/-- The first STATUS is replaced in its place. -/
theorem replaceStatus_append {before : List TxFrame} {f : TxFrame} (hb : ∀ g ∈ before, g.kind ≠ .status)
    (hf : f.kind = .status) (p : List Byte) (after : List TxFrame) :
    replaceStatus p (before ++ f :: after) =
      before ++ { f with payload := carryOverrun f.payload p, collisions := 0 } :: after := by
  induction before with
  | nil => exact replaceStatus_head hf p after
  | cons g before ih =>
    have hg : g.kind ≠ .status := hb g List.mem_cons_self
    rw [List.cons_append, replaceStatus, if_neg hg, ih fun x hx => hb x (List.mem_cons_of_mem _ hx)]
    rfl

theorem replaceStatus_kinds (p : List Byte) (q : List TxFrame) :
    (replaceStatus p q).map TxFrame.kind = q.map TxFrame.kind := by
  induction q with
  | nil => rfl
  | cons f q ih =>
    unfold replaceStatus
    split
    · rfl
    · rw [List.map_cons, ih, List.map_cons]

theorem replaceStatus_collisions {p : List Byte} {q : List TxFrame} (h : ∀ f ∈ q, f.collisions < 16) :
    ∀ f ∈ replaceStatus p q, f.collisions < 16 := by
  induction q with
  | nil => exact h
  | cons f q ih =>
    unfold replaceStatus
    split
    · exact List.forall_mem_cons.2 ⟨Nat.zero_lt_succ 15, (List.forall_mem_cons.1 h).2⟩
    · exact List.forall_mem_cons.2
        ⟨(List.forall_mem_cons.1 h).1, ih (List.forall_mem_cons.1 h).2⟩

/-- Counting frames by their kind sees the kinds alone. -/
theorem length_filter_kind {q r : List TxFrame} (h : r.map TxFrame.kind = q.map TxFrame.kind)
    (p : TxKind → Bool) :
    (r.filter (fun f => p f.kind)).length = (q.filter (fun f => p f.kind)).length := by
  have e (x : List TxFrame) : (x.filter (fun f => p f.kind)).length =
      ((x.map TxFrame.kind).filter p).length := by simp [List.filter_map, Function.comp_def]
  rw [e, e, h]

theorem QueueSound.replaceStatus {q : List TxFrame} (h : QueueSound q) (p : List Byte) :
    QueueSound (replaceStatus p q) := by
  obtain ⟨h8, h1, h7, hc⟩ := h
  have hk := replaceStatus_kinds p q
  have hlen : (Machine.replaceStatus p q).length = q.length := by
    simpa using congrArg List.length hk
  refine ⟨hlen ▸ h8, ?_, ?_, replaceStatus_collisions hc⟩
  · rw [length_filter_kind hk (fun k => decide (k = .status))]
    exact h1
  · rw [length_filter_kind hk (fun k => decide (k ≠ .status))]
    exact h7

theorem replaceStatus_ne_nil {p : List Byte} {q : List TxFrame} (h : q ≠ []) : replaceStatus p q ≠ [] := by
  intro e
  have hk := replaceStatus_kinds p q
  rw [e] at hk
  exact h (List.map_eq_nil_iff.1 hk.symm)

theorem hasStatus_iff (q : List TxFrame) : hasStatus q = true ↔ ∃ f ∈ q, f.kind = .status := by
  simp [hasStatus]

theorem hasStatus_false_iff (q : List TxFrame) : hasStatus q = false ↔ ∀ f ∈ q, f.kind ≠ .status := by
  simp [hasStatus]

/-! ### A STATUS in transmission (R31, R32) -/

theorem statusInTransmission_cons {l : Link} {f : TxFrame} {rest : List TxFrame}
    (hq : l.queue = f :: rest) :
    statusInTransmission l = true ↔ l.sending ≠ none ∧ f.kind = .status := by
  simp [statusInTransmission, headIsStatus, hq, Option.isSome_iff_ne_none]

/-- Whether a STATUS is in transmission is seen at the frame sent and at the queue's head. -/
theorem statusInTransmission_append {l : Link} (h : statusInTransmission l = true) (q : List TxFrame) :
    statusInTransmission { l with queue := l.queue ++ q } = true := by
  unfold statusInTransmission at h ⊢
  cases hq : l.queue with
  | nil => simp [hq, headIsStatus] at h
  | cons f rest => simpa [hq, headIsStatus] using h

/-- Nothing is held while no STATUS is in transmission. -/
theorem LinkSound.hold_none {l : Link} (h : LinkSound l) (hs : statusInTransmission l = false) :
    l.hold = none := by
  obtain ⟨-, -, -, hh⟩ := (linkSound_iff l).1 h
  by_contra hne
  rw [hh hne] at hs
  cases hs

theorem LinkSound.queue {l : Link} (h : LinkSound l) : QueueSound l.queue := ((linkSound_iff l).1 h).1

/-! ### The Link Controller's acts keep it sound -/

/-- A link with nothing in transmission and nothing held. -/
theorem linkSound_of_silent {l : Link} (hq : QueueSound l.queue) (hb : l.buffers.length ≤ 2)
    (hs : l.sending = none) (hh : l.hold = none) : LinkSound l :=
  (linkSound_iff l).2 ⟨hq, hb, fun k => absurd hs k, fun k => absurd hh k⟩

theorem linkSound_reset : LinkSound Link.reset :=
  linkSound_of_silent ⟨by decide, by decide, by decide, by decide⟩ (by decide) rfl rfl

/-- Neither the receiver's place, the overrun flag nor the admission mark is part of it. -/
theorem LinkSound.withReceiver {l : Link} (h : LinkSound l) (rx : RxState) (overrun : Bool) (mark : Feeder)
    {bs : List RxFrame} (hb : bs.length ≤ 2) :
    LinkSound { l with rx := rx, overrun := overrun, mark := mark, buffers := bs } := by
  obtain ⟨hq, -, hs, hh⟩ := (linkSound_iff l).1 h
  exact (linkSound_iff _).2 ⟨hq, hb, hs, hh⟩

theorem LinkSound.buffers_le {l : Link} (h : LinkSound l) : l.buffers.length ≤ 2 :=
  ((linkSound_iff l).1 h).2.1

theorem LinkSound.placeFrame {l : Link} (h : LinkSound l) (f : RxFrame) : LinkSound (placeFrame f l) := by
  unfold Machine.placeFrame
  split
  · next hb =>
    have hb : l.buffers.length < 2 := hb
    exact h.withReceiver _ _ _ (by simpa using hb)
  · exact h.withReceiver _ true _ h.buffers_le

theorem LinkSound.enqueueFrame {l : Link} (h : LinkSound l) (hm : mayAdmit l = true) {kind : TxKind}
    (hk : kind ≠ .status) (p : List Byte) : LinkSound (enqueueFrame kind p l) := by
  obtain ⟨hq, hb, hs, hh⟩ := (linkSound_iff l).1 h
  have h6 : l.queue.length ≤ 6 := of_decide_eq_true hm
  exact (linkSound_iff _).2 ⟨hq.append_feeder h6 hk p, hb,
    fun _ => by simp [Machine.enqueueFrame], fun k => statusInTransmission_append (hh k) _⟩

/-- An offered STATUS always finds a place (R32, R33). -/
theorem LinkSound.offerStatus {l : Link} (h : LinkSound l) (p : List Byte) :
    LinkSound (offerStatus p l) := by
  obtain ⟨hq, hb, hs, hh⟩ := (linkSound_iff l).1 h
  unfold Machine.offerStatus
  split
  · next ht => exact (linkSound_iff _).2 ⟨hq, hb, hs, fun _ => ht⟩
  · next ht =>
    have hn : l.hold = none := h.hold_none (by simpa using ht)
    split
    · exact (linkSound_iff _).2 ⟨hq.replaceStatus p, hb, fun k => replaceStatus_ne_nil (hs k),
        fun k => absurd hn k⟩
    · next hst =>
      have hf : l.queue.filter (fun f => decide (f.kind = .status)) = [] := by
        have hst := (hasStatus_false_iff _).1 (Bool.eq_false_iff.2 hst)
        exact List.filter_eq_nil_iff.2 (by simpa using hst)
      exact (linkSound_iff _).2 ⟨hq.append_status hf p, hb, fun _ => by simp, fun k => absurd hn k⟩

/-- A STATUS left at the head is replaced by what was held (R32). -/
theorem linkSound_holdReplaces {l : Link} (hq : QueueSound l.queue) (hb : l.buffers.length ≤ 2)
    (hs : l.sending = none) : LinkSound (holdReplaces l) := by
  unfold holdReplaces
  split
  · next hh => exact linkSound_of_silent hq hb hs hh
  · exact linkSound_of_silent (hq.replaceStatus _) hb hs rfl

/-- What was held takes the tail when the STATUS in transmission has left (R32). -/
theorem linkSound_holdAppended {l : Link} (hq : QueueSound l.queue) (hb : l.buffers.length ≤ 2)
    (hs : l.sending = none)
    (hf : l.queue.filter (fun f => decide (f.kind = .status)) = []) : LinkSound (holdAppended l) := by
  unfold holdAppended
  split
  · next hh => exact linkSound_of_silent hq hb hs hh
  · exact linkSound_of_silent (hq.append_status hf _) hb hs rfl

/-- A link whose head is no STATUS holds none. -/
theorem LinkSound.hold_none_of_head {l : Link} (h : LinkSound l) {f : TxFrame} {rest : List TxFrame}
    (hq : l.queue = f :: rest) (hf : f.kind ≠ .status) : l.hold = none :=
  h.hold_none (Bool.eq_false_iff.2 fun k => hf ((statusInTransmission_cons hq).1 k).2)

/-- The head in transmission leaves the queue (R24, R31). -/
theorem LinkSound.headLeaves {l : Link} (h : LinkSound l) {f : TxFrame} {rest : List TxFrame}
    (hq : l.queue = f :: rest) (rx : RxState) (overrun : Bool) :
    LinkSound (if f.kind = .status then
        holdAppended { l with sending := none, rx := rx, overrun := overrun, queue := rest }
      else { l with sending := none, rx := rx, queue := rest }) := by
  have hqs : QueueSound (f :: rest) := hq ▸ h.queue
  split
  · next hf =>
    exact linkSound_holdAppended hqs.tail h.buffers_le rfl (hqs.noStatus_of_head hf)
  · next hf => exact linkSound_of_silent hqs.tail h.buffers_le rfl (h.hold_none_of_head hq hf)

/-- The head in transmission stays, with its kind, and is no longer sent (R23, R24). -/
theorem LinkSound.headStays {l : Link} (h : LinkSound l) {f g : TxFrame} {rest : List TxFrame}
    (hq : l.queue = f :: rest) (hk : g.kind = f.kind) (hc : g.collisions < 16) (rx : RxState) :
    LinkSound (if f.kind = .status then
        holdReplaces { l with sending := none, rx := rx, queue := g :: rest }
      else { l with sending := none, rx := rx, queue := g :: rest }) := by
  have hqs : QueueSound (g :: rest) := (hq ▸ h.queue : QueueSound (f :: rest)).setHead hk hc
  split
  · exact linkSound_holdReplaces hqs h.buffers_le rfl
  · next hf => exact linkSound_of_silent hqs h.buffers_le rfl (h.hold_none_of_head hq hf)

end Sys2Proof.Machine
end

section
/-! Every step keeps the Link Controller's and the Event Queue's records sound: the acts of the Link
Controller one by one, posting and the two other acts on the Event Queue, and the table of the
commands. -/

namespace Sys2Proof.Machine

/-! ### The Link Controller's record -/

theorem LinkSound.of_keeps {bs : List Block} {s t : State} (h : LinkSound s.link)
    (k : KeepsAllBut bs s t) (hb : Block.link ∉ bs) : LinkSound t.link := by
  have e : t.link = s.link := k .link hb
  rwa [e]

/-- A frame taken from the buffers, and what its consumer then does. -/
theorem LinkSound.takeBy {s : State} (h : LinkSound s.link) (c : Consumer)
    {act : RxFrame → Option (State → State)}
    (ha : ∀ f g t, act f = some g → LinkSound t.link → LinkSound (g t).link) :
    LinkSound (takeBy c s act).link := by
  refine takeBy_keeps (fun t => LinkSound t.link) c s act h fun f rest g ht hg => ha f g _ hg ?_
  obtain ⟨-, hlen⟩ := takeFrame_length c _ f rest ht
  have h2 := h.buffers_le
  exact h.withReceiver _ _ _ (by omega)

theorem LinkSound.startSend {s : State} (h : LinkSound s.link) (n : Nat) :
    LinkSound (startSend n s).link := by
  refine whenActive_keeps (fun t => LinkSound t.link) s _ h fun _ => ?_
  split
  · exact h
  · next f rest hq =>
    split
    · next hs =>
      have hqs : QueueSound (f :: rest) := hq ▸ h.queue
      have hn : s.link.hold = none := h.hold_none (by simp [statusInTransmission, hs.1])
      exact (linkSound_iff _).2 ⟨hqs.setHead rfl (hqs.2.2.2 f List.mem_cons_self), h.buffers_le,
        fun _ => List.cons_ne_nil _ _, fun k => absurd hn k⟩
    · exact h

theorem LinkSound.loseArbitration {s : State} (h : LinkSound s.link) (bit : Nat) :
    LinkSound (loseArbitration bit s).link := by
  refine whenActive_keeps (fun t => LinkSound t.link) s _ h fun _ => ?_
  split
  · exact h
  · split
    · dsimp only
      split
      · exact linkSound_holdReplaces h.queue h.buffers_le rfl
      · next hf =>
        have hn : s.link.hold = none := h.hold_none (by simp [statusInTransmission, hf])
        exact linkSound_of_silent h.queue h.buffers_le rfl hn
    · exact h

theorem LinkSound.collide {s : State} (h : LinkSound s.link) : LinkSound (collide s).link := by
  refine whenActive_keeps (fun t => LinkSound t.link) s _ h fun _ => ?_
  split
  · next f rest _ hq =>
    dsimp only
    split
    · next hc =>
      exact h.headStays hq (g := { f with collisions := f.collisions + 1, backoff := true }) rfl hc
        .taking
    · rw [post_link]
      exact h.headLeaves hq .taking _
  · exact h

theorem LinkSound.headSent {s : State} (h : LinkSound s.link) : LinkSound (headSent s).link := by
  refine whenActive_keeps (fun t => LinkSound t.link) s _ h fun _ => ?_
  split
  · next f rest _ hq => exact h.headLeaves hq _ _
  · exact h

theorem LinkSound.setRx {s : State} (h : LinkSound s.link) (x : RxState) : LinkSound (setRx x s).link :=
  h.withReceiver x _ _ h.buffers_le

theorem LinkSound.receiveFrame {s : State} (h : LinkSound s.link) (bytes : List Byte) :
    LinkSound (receiveFrame bytes s).link := by
  unfold Machine.receiveFrame
  split
  · dsimp only
    split
    · split
      · exact h.setRx .waiting
      · exact (h.setRx .waiting).placeFrame _
    · exact h.setRx .waiting
  · exact h

theorem LinkSound.breakOff {s : State} (h : LinkSound s.link) : LinkSound (breakOff s).link := by
  unfold Machine.breakOff
  split
  · exact h.setRx .waiting
  · exact h

theorem LinkSound.longHeader {s : State} (h : LinkSound s.link) (h1 : Byte) :
    LinkSound (longHeader h1 s).link := by
  unfold Machine.longHeader
  split
  · exact h.setRx .waiting
  · exact h

theorem LinkSound.startBit {s : State} (h : LinkSound s.link) : LinkSound (startBit s).link := by
  unfold Machine.startBit
  split
  · exact h.setRx .taking
  · exact h

theorem LinkSound.admitEvent {s : State} (h : LinkSound s.link) : LinkSound (admitEvent s).link := by
  refine whenActive_keeps (fun t => LinkSound t.link) s _ h fun _ => ?_
  split
  · exact h
  · next e _ _ =>
    split
    · next hm =>
      have k := h.enqueueFrame hm.1 (kind := .event) (by decide) (eventPayload e)
      exact k.withReceiver _ _ .eventQueue k.buffers_le
    · exact h

theorem LinkSound.admitClosing {s : State} (h : LinkSound s.link) : LinkSound (admitClosing s).link := by
  refine whenActive_keeps (fun t => LinkSound t.link) s _ h fun _ => ?_
  split
  · exact h
  · next i _ =>
    split
    · next hm =>
      have k := h.enqueueFrame hm.1 (kind := .report) (by decide) (closingReport s.accounts i)
      exact k.withReceiver _ _ .cursor k.buffers_le
    · exact h

theorem LinkSound.offerReport {s : State} (h : LinkSound s.link) (selector : Nat) (p : List Byte) :
    LinkSound (offerReport selector p s).link := by
  unfold Machine.offerReport
  split
  · next hm => exact h.enqueueFrame hm (by decide) p
  · rwa [post_link]

theorem LinkSound.takeQuery {s : State} (h : LinkSound s.link)
    (reply : Query → Option (State → List Byte)) : LinkSound (takeQuery s reply).link := by
  refine h.takeBy _ fun f g t hg ht => ?_
  split at hg
  · obtain ⟨form, -, rfl⟩ := Option.map_eq_some_iff.1 hg
    exact ht.offerReport _ _
  · cases hg

theorem LinkSound.takeStatus {s : State} (h : LinkSound s.link) : LinkSound (takeStatus s).link := by
  refine h.takeBy _ fun f g t hg ht => ?_
  split at hg <;> cases hg
  split
  · unfold takeDuplicate
    split
    · exact linkSound_reset.withReceiver t.link.rx false t.link.mark (Nat.zero_le 2)
    · rwa [post_link]
  · exact ht.of_keeps (takePeerStatus_keeps _ _ t) (by decide)

theorem LinkSound.shareCycle {s : State} (h : LinkSound s.link) : LinkSound (shareCycle s).link := by
  refine whenActive_keeps (fun t => LinkSound t.link) s _ h fun _ => ?_
  split
  · have k := (storeShare_keeps (shareCompute s.cfg.station (shareInputs s)) s).trans (judgeDuty_keeps _)
    exact (h.of_keeps k (by decide)).offerStatus _
  · exact h

theorem LinkSound.takeImageBody {s : State} (h : LinkSound s.link) (rest : List Byte) :
    LinkSound (takeImageBody rest s).link := by
  unfold Machine.takeImageBody
  split
  · split
    · split
      · dsimp only
        split
        · exact h
        · exact h.withReceiver .waiting _ _ h.buffers_le
      · exact h
    · exact h
    · exact h
    · exact h
  · exact h

/-- A consumer whose act leaves the link. -/
theorem LinkSound.takeBy_of_keeps {s : State} (h : LinkSound s.link) (c : Consumer)
    {act : RxFrame → Option (State → State)} {bs : List Block} (hb : Block.link ∉ bs)
    (ha : ∀ f g t, act f = some g → KeepsAllBut bs t (g t)) : LinkSound (Machine.takeBy c s act).link :=
  h.takeBy c fun f g t hg ht => ht.of_keeps (ha f g t hg) hb

theorem exec_linkSound {c : Instr} {s t : State} (h : LinkSound s.link) (hx : exec c s = .next t) :
    LinkSound t.link := by
  cases c with
  | reset => cases hx; exact linkSound_reset
  | configImageRead rest => cases hx; exact h.takeImageBody rest
  | linkTxStart n => cases hx; exact h.startSend n
  | arbitrationLoss bit => cases hx; exact h.loseArbitration bit
  | collision => cases hx; exact h.collide
  | frameSent => cases hx; exact h.headSent
  | frameReceive bytes => cases hx; exact h.receiveFrame bytes
  | frameBrokenOff => cases hx; exact h.breakOff
  | headerLengthAbove24 h0 h1 => cases hx; exact h.longHeader h1
  | startBitAfterIdle => cases hx; exact h.startBit
  | eventAdmission => cases hx; exact h.admitEvent
  | closingReportAdmission => cases hx; exact h.admitClosing
  | statusTake => cases hx; exact h.takeStatus
  | shareCycle => cases hx; exact h.shareCycle
  | queryAccount | queryEntry | queryPeer | queryQuantity | queryLines | queryStation =>
    cases hx; exact h.takeQuery _
  | mark =>
    cases hx
    exact h.takeBy_of_keeps _ (bs := [.accounts, .events]) (by decide) fun f g t hg => by
      split at hg <;> cases hg
      exact markBy_keeps _ _ t
  | nominate =>
    cases hx
    exact h.takeBy_of_keeps _ (bs := [.accounts, .events]) (by decide) fun f g t hg => by
      split at hg <;> cases hg
      exact nominateBy_keeps _ _ _ t
  | setup =>
    cases hx
    exact h.takeBy_of_keeps _ (bs := [.accounts, .events]) (by decide) fun f g t hg => by
      split at hg <;> cases hg
      exact setupBy_keeps _ _ _ t
  | balance =>
    cases hx
    exact h.takeBy_of_keeps _ (bs := [.accounts, .events]) (by decide) fun f g t hg => by
      split at hg <;> cases hg
      exact balanceBy_keeps _ _ t
  | retire =>
    cases hx
    exact h.takeBy_of_keeps _ (bs := [.accounts, .events]) (by decide) fun f g t hg => by
      split at hg <;> cases hg
      exact retireBy_keeps _ t
  | clearTrip =>
    cases hx
    exact h.takeBy_of_keeps _ (bs := [.direction, .lines, .inbox, .events]) (by decide) fun f g t hg => by
      split at hg <;> cases hg
      exact clearByFrame_keeps t
  | clearUnit =>
    cases hx
    exact h.takeBy_of_keeps _ (bs := [.compressor, .lines, .inbox, .events]) (by decide) fun f g t hg => by
      split at hg <;> cases hg
      exact clearUnitBy_keeps _ t
  | clearTower =>
    cases hx
    exact h.takeBy_of_keeps _ (bs := [.dryer, .lines, .events]) (by decide) fun f g t hg => by
      split at hg <;> cases hg
      exact clearTowerBy_keeps _ t
  | _ => exact h.of_keeps (exec_keeps _ hx) (by simp [touches])

end Sys2Proof.Machine
end

section
/-! Every command keeps the Event Queue's record sound: posting does, and what else writes it (the reset,
the start clock, the admission of an EVENT, entry to DUPLICATE). With `exec_linkSound`, every step. -/

namespace Sys2Proof.Machine

/-! ### Posting -/

theorem eventsSound_reset : EventsSound Events.reset := ⟨by decide, by decide, by decide⟩

theorem EventsSound.of_keeps {bs : List Block} {s t : State} (h : EventsSound s.events)
    (k : KeepsAllBut bs s t) (hb : Block.events ∉ bs) : EventsSound t.events := by
  have e : t.events = s.events := k .events hb
  rwa [e]

/-- A post appends within the 10 places, and where it drops the event 10 others wait (R194). -/
theorem EventsSound.post {s : State} {k : EventKind} {d : Nat} (h : EventsSound s.events) :
    EventsSound (post k d s).events := by
  obtain ⟨h10, hl, hc⟩ := h
  cases ha : s.active with
  | false => rw [post_inactive k d s ha]; exact ⟨h10, hl, hc⟩
  | true =>
    by_cases hr : s.events.queue.length < 10
    · rw [post_room k d s ha hr]
      exact ⟨by simpa using hr, fun _ => by simp, hc⟩
    · rw [post_full k d s ha hr]
      exact ⟨h10, fun _ (e : s.events.queue = []) => hr (by simp [e]), hc⟩

theorem EventsSound.postAll {s : State} {es : List (EventKind × Nat)} (h : EventsSound s.events) :
    EventsSound (postAll es s).events := by
  induction es generalizing s with
  | nil => exact h
  | cons e es ih => exact ih h.post

/-- A frame taken from the buffers, and what its consumer then does. -/
theorem EventsSound.takeBy {s : State} (h : EventsSound s.events) (c : Consumer)
    {act : RxFrame → Option (State → State)}
    (ha : ∀ f g t, act f = some g → EventsSound t.events → EventsSound (g t).events) :
    EventsSound (takeBy c s act).events :=
  takeBy_keeps (fun t => EventsSound t.events) c s act h fun f _ g _ hg => ha f g _ hg h

/-- A line's change taken, and what its owner then does. -/
theorem EventsSound.takeLine {s : State} (h : EventsSound s.events) (role : Role) (lvl : Bool)
    {act : State → State} (ha : ∀ t, EventsSound t.events → EventsSound (act t).events) :
    EventsSound (takeLine role lvl s act).events :=
  takeLine_keeps (fun t => EventsSound t.events) role lvl s act h fun _ _ => ha _ h

theorem EventsSound.whenActive {s : State} (h : EventsSound s.events) {f : State → State}
    (hf : EventsSound (f s).events) : EventsSound (whenActive s f).events :=
  whenActive_keeps (fun t => EventsSound t.events) s f h fun _ => hf

/-! ### The Event Queue's own acts, the link, the start clock -/

theorem EventsSound.dropOldest {e : Events} (h : EventsSound e) : EventsSound (dropOldest e) := by
  obtain ⟨h10, -, hc⟩ := h
  refine ⟨?_, fun hl => ?_, hc⟩
  · calc e.queue.tail.length ≤ e.queue.length := by simp
      _ ≤ 10 := h10
  · have hl : (e.lost && decide (e.queue.tail ≠ [])) = true := hl
    exact of_decide_eq_true (Bool.and_eq_true_iff.1 hl).2

theorem EventsSound.admitEvent {s : State} (h : EventsSound s.events) :
    EventsSound (admitEvent s).events := by
  refine h.whenActive ?_
  split
  · exact h
  · split
    · exact h.dropOldest
    · exact h

theorem EventsSound.collide {s : State} (h : EventsSound s.events) : EventsSound (collide s).events := by
  refine h.whenActive ?_
  split
  · dsimp only
    split
    · exact h
    · exact .post h
  · exact h

theorem EventsSound.endReset {s : State} (h : EventsSound s.events) : EventsSound (endReset s).events := by
  unfold Machine.endReset
  split
  · exact ⟨h.1, h.2.1, Nat.zero_le _⟩
  · exact h

theorem EventsSound.clockTick {s : State} (h : EventsSound s.events) :
    EventsSound (clockTick s).events := by
  unfold Machine.clockTick
  split
  · exact h
  · exact ⟨h.1, h.2.1, Nat.min_le_left _ _⟩

/-- Entry to DUPLICATE empties the queue, and the clock runs on (R196). -/
theorem EventsSound.enterDuplicate {s : State} (h : EventsSound s.events) :
    EventsSound (enterDuplicate s).events :=
  ⟨Nat.zero_le _, fun k => Bool.noConfusion k, h.2.2⟩

/-! ### Sensor scan, peers, queries, metering -/

theorem EventsSound.scanExpiry {s : State} (h : EventsSound s.events) :
    EventsSound (scanExpiry s).events := by
  refine h.whenActive ?_
  split
  · split
    · exact h
    · split
      · exact h
      · exact .post h
  · exact h

theorem EventsSound.readEnd {s : State} (h : EventsSound s.events) (reply : List Byte) :
    EventsSound (readEnd reply s).events := by
  refine h.whenActive ?_
  split
  · exact h
  · split
    · split
      · show EventsSound (takeReading _ reply s).events
        rw [takeReading_events]
        exact h.postAll
      · exact h
    · exact h
    · exact h

theorem EventsSound.takeStatus {s : State} (h : EventsSound s.events) :
    EventsSound (takeStatus s).events := by
  refine h.takeBy _ fun f g t hg ht => ?_
  split at hg <;> cases hg
  split
  · unfold takeDuplicate
    split
    · exact ht.enterDuplicate
    · exact ht.post
  · exact .postAll ht

theorem EventsSound.silenceExpiry {s : State} (h : EventsSound s.events) (n : Nat) :
    EventsSound (silenceExpiry n s).events := by
  refine h.whenActive ?_
  dsimp only
  split
  · exact .postAll h
  · exact h

theorem EventsSound.takeQuery {s : State} (h : EventsSound s.events)
    (reply : Query → Option (State → List Byte)) : EventsSound (takeQuery s reply).events := by
  refine h.takeBy _ fun f g t hg ht => ?_
  split at hg
  · obtain ⟨form, -, rfl⟩ := Option.map_eq_some_iff.1 hg
    dsimp only [offerReport]
    split
    · exact ht
    · exact ht.post
  · cases hg

theorem EventsSound.interval {s : State} (h : EventsSound s.events) : EventsSound (interval s).events := by
  refine h.whenActive ?_
  split
  · have hs : EventsSound (settle s).events := h.of_keeps (settle_keeps s) (by decide)
    exact .postAll hs
  · exact h

theorem EventsSound.historyExpiry {s : State} (h : EventsSound s.events) :
    EventsSound (historyExpiry s).events := by
  refine h.whenActive ?_
  split
  · split
    · exact h
    · exact .postAll h
  · exact h

/-! ### Accounts -/

theorem EventsSound.rotate {s : State} {seq : Word16} (h : EventsSound s.events) :
    EventsSound (rotate seq s).events := .postAll h

theorem EventsSound.markBy {s : State} (h : EventsSound s.events) (seq : Word16) (elapsed : Nat) :
    EventsSound (markBy seq elapsed s).events := by
  simp only [Machine.markBy]
  split
  · exact h
  · split
    · exact h
    · split
      · exact h.rotate
      · split
        · exact (h.rotate).post
        · exact h

theorem EventsSound.nominateBy {s : State} (h : EventsSound s.events) (seq : Word16) (code : Nat)
    (rate : Int) : EventsSound (nominateBy seq code rate s).events := by
  unfold Machine.nominateBy
  split
  · exact h.post
  · split
    · exact h.post
    · split
      · exact h.post
      · exact .postAll h

theorem EventsSound.setupBy {s : State} (h : EventsSound s.events) (code injR wdR : Nat) :
    EventsSound (setupBy code injR wdR s).events := by
  unfold Machine.setupBy
  split
  · exact h.post
  · split
    · exact .postAll h
    · split
      · exact h.post
      · exact h

theorem EventsSound.balanceBy {s : State} (h : EventsSound s.events) (code : Nat) (amount : Int) :
    EventsSound (balanceBy code amount s).events := by
  unfold Machine.balanceBy
  split
  · exact h.post
  · exact h

theorem EventsSound.retireBy {s : State} (h : EventsSound s.events) (code : Nat) :
    EventsSound (retireBy code s).events := by
  unfold Machine.retireBy
  split
  · exact h.post
  · split
    · exact h.post
    · exact h

theorem EventsSound.graceExpiry {s : State} (h : EventsSound s.events) :
    EventsSound (graceExpiry s).events := by
  refine h.whenActive ?_
  split
  · exact .post h.rotate
  · exact h

/-! ### Compressor duty -/

theorem EventsSound.leaveTo {s : State} {u : UnitId} {dest : UnitState} (h : EventsSound s.events) :
    EventsSound (leaveTo u dest s).events := h.of_keeps (leaveTo_keeps u dest s) (by decide)

theorem EventsSound.judgeTrain {s : State} (h : EventsSound s.events) :
    EventsSound (judgeTrain s).events := h.of_keeps (judgeTrain_keeps s) (by decide)

theorem EventsSound.tripUnit {s : State} {u : UnitId} {cause : Nat} (h : EventsSound s.events) :
    EventsSound (tripUnit u cause s).events := by
  simp only [Machine.tripUnit]
  split
  · exact h.post.leaveTo.post
  · exact h.post.leaveTo

theorem EventsSound.startTimeout {s : State} (h : EventsSound s.events) (u : UnitId) :
    EventsSound (startTimeout u s).events := by
  refine h.whenActive ?_
  dsimp only
  split
  · split
    · exact .judgeTrain (.leaveTo (.post h))
    · exact .judgeTrain (.post (.leaveTo (.post h)))
  · exact h

theorem EventsSound.feedbackOff {s : State} (h : EventsSound s.events) (u : UnitId) :
    EventsSound (feedbackOff u s).events := by
  refine h.takeLine _ _ fun t ht => ?_
  split
  · exact ht.tripUnit.judgeTrain
  · exact ht

theorem EventsSound.faultOn {s : State} (h : EventsSound s.events) (u : UnitId) :
    EventsSound (faultOn u s).events := by
  refine h.takeLine _ _ fun t ht => ?_
  split
  · exact ht.tripUnit.judgeTrain
  · split
    · exact ht.judgeTrain
    · exact ht

theorem EventsSound.clearUnitBy {s : State} (h : EventsSound s.events) (u : UnitId) :
    EventsSound (clearUnitBy u s).events := by
  unfold Machine.clearUnitBy
  split
  · split
    · exact h.post
    · exact .judgeTrain h
  · exact h.post

/-! ### Gas drying -/

theorem EventsSound.judgeSwitch {s : State} (h : EventsSound s.events) :
    EventsSound (judgeSwitch s).events := by
  unfold Machine.judgeSwitch
  split
  · exact .post h
  · exact h

theorem EventsSound.handOver {s : State} (h : EventsSound s.events) : EventsSound (handOver s).events :=
  h.of_keeps (handOver_keeps s) (by decide)

theorem EventsSound.clearTowerBy {s : State} (h : EventsSound s.events) (w : Tower) :
    EventsSound (clearTowerBy w s).events := by
  unfold Machine.clearTowerBy
  split
  · exact .handOver h
  · exact h.post

theorem EventsSound.takeDryerIncrement {s : State} (h : EventsSound s.events) :
    EventsSound (takeDryerIncrement s).events := by
  refine h.whenActive ?_
  split
  · exact h
  · dsimp only
    split
    · exact .judgeSwitch h
    · exact h

theorem EventsSound.halfHeat {s : State} (h : EventsSound s.events) (w : Tower) :
    EventsSound (halfHeat w s).events := by
  refine h.whenActive ?_
  dsimp only
  split
  · split
    · exact h
    · exact .handOver (.post h)
  · exact h

theorem EventsSound.coolEnd {s : State} (h : EventsSound s.events) (w : Tower) :
    EventsSound (coolEnd w s).events := by
  refine h.whenActive ?_
  dsimp only
  split
  · exact .judgeSwitch h
  · exact h

theorem EventsSound.judgeDew {s : State} {st : QState} {v : Int} (h : EventsSound s.events) :
    EventsSound (judgeDew st v s).events := by
  simp only [Machine.judgeDew]
  split
  · exact .judgeSwitch (.post h)
  · split
    · exact .post h
    · exact h

theorem EventsSound.takeDewUpdate {s : State} (h : EventsSound s.events) :
    EventsSound (takeDewUpdate s).events := by
  refine h.whenActive ?_
  split
  · exact h
  · exact .judgeDew h

theorem EventsSound.dryerEntry {s : State} (h : EventsSound s.events) :
    EventsSound (dryerEntry s).events := by
  refine h.whenActive ?_
  split
  · exact .judgeSwitch (.handOver h)
  · exact h

/-! ### Direction and ramp -/

theorem EventsSound.enterFlow {s : State} {f : Flow} (h : EventsSound s.events) :
    EventsSound (enterFlow f s).events := by
  cases f <;> exact .post h

theorem EventsSound.judgeLineup {s : State} (h : EventsSound s.events) :
    EventsSound (judgeLineup s).events := by
  unfold Machine.judgeLineup
  split
  · exact h
  · split
    · exact h.enterFlow
    · exact h

theorem EventsSound.enterLineup {s : State} {f : Flow} (h : EventsSound s.events) :
    EventsSound (enterLineup f s).events := by
  cases f <;> exact .judgeLineup h

theorem EventsSound.judgeExit {s : State} (h : EventsSound s.events) :
    EventsSound (judgeExit s).events := by
  unfold Machine.judgeExit
  split
  · split
    · exact h.enterLineup
    · exact h
  · exact h

theorem EventsSound.enterIdle {s : State} (h : EventsSound s.events) :
    EventsSound (enterIdle s).events := .judgeExit h

theorem EventsSound.enterTripped {s : State} {cause : TripCause} (h : EventsSound s.events) :
    EventsSound (enterTripped cause s).events := .post h

theorem EventsSound.beginClose {s : State} (h : EventsSound s.events) :
    EventsSound (beginClose s).events := by
  simp only [Machine.beginClose]
  split
  · exact .enterIdle h
  · exact h

theorem EventsSound.enterRundown {s : State} {f : Flow} (h : EventsSound s.events) :
    EventsSound (enterRundown f s).events := by
  simp only [Machine.enterRundown]
  split
  · exact .beginClose h
  · exact h

theorem EventsSound.lineupDelivery {s : State} {f : Flow} {d : Dir} (h : EventsSound s.events) :
    EventsSound (lineupDelivery f d s).events := by
  unfold Machine.lineupDelivery
  split
  · exact h
  · exact h.enterRundown

theorem EventsSound.flowDelivery {s : State} {f : Flow} {d : Dir} (h : EventsSound s.events) :
    EventsSound (flowDelivery f d s).events := by
  unfold Machine.flowDelivery
  split
  · exact h
  · exact h.enterRundown

theorem EventsSound.deliver {s : State} {p : Nat} {d : Dir} (h : EventsSound s.events) :
    EventsSound (deliver p d s).events := by
  simp only [Machine.deliver]
  split
  · exact .judgeExit h
  · exact .lineupDelivery h
  · exact .lineupDelivery h
  · exact .flowDelivery h
  · exact .flowDelivery h
  · exact h
  · exact h

theorem EventsSound.takeDelivery {s : State} (h : EventsSound s.events) :
    EventsSound (takeDelivery s).events := by
  refine h.whenActive ?_
  split
  · exact h
  · exact .deliver h

theorem EventsSound.closeAtZero {s : State} (h : EventsSound s.events) :
    EventsSound (closeAtZero s).events := by
  unfold Machine.closeAtZero
  split
  · exact h.beginClose
  · exact h

theorem EventsSound.takeNoticeOf {s : State} {n : Notice} (h : EventsSound s.events) :
    EventsSound (takeNoticeOf n s).events := by
  simp only [Machine.takeNoticeOf]
  split
  · split
    · exact .judgeLineup h
    · exact h
  · split
    · exact .closeAtZero h
    · exact h

theorem EventsSound.takeNotice {s : State} (h : EventsSound s.events) :
    EventsSound (takeNotice s).events := by
  refine h.whenActive ?_
  split
  · exact h
  · exact .takeNoticeOf h

theorem EventsSound.judgeFeedback {s : State} (h : EventsSound s.events) :
    EventsSound (judgeFeedback s).events := by
  unfold Machine.judgeFeedback
  split
  · exact h.judgeLineup
  · exact h.judgeLineup
  · split
    · exact h.enterIdle
    · exact h
  all_goals exact h

theorem EventsSound.valveChange {s : State} (h : EventsSound s.events) (fb : ValveFb) :
    EventsSound (valveChange fb s).events := by
  refine h.whenActive ?_
  split
  · exact h
  · exact .judgeFeedback h

theorem EventsSound.estopOn {s : State} (h : EventsSound s.events) : EventsSound (estopOn s).events := by
  refine h.takeLine _ _ fun t ht => ?_
  split
  · exact ht
  · exact ht.enterTripped

theorem EventsSound.clearTripped {s : State} {source : Nat} (h : EventsSound s.events) :
    EventsSound (clearTripped source s).events := .enterIdle (.post h)

theorem EventsSound.clearByFrame {s : State} (h : EventsSound s.events) :
    EventsSound (clearByFrame s).events := by
  unfold Machine.clearByFrame
  split
  · split
    · exact h.clearTripped
    · exact h.post
  · exact h.post

theorem EventsSound.clearByLine {s : State} (h : EventsSound s.events) :
    EventsSound (clearByLine s).events := by
  unfold Machine.clearByLine
  split
  · split
    · exact h.clearTripped
    · exact h.post
  · exact h

theorem EventsSound.lineupExpiry {s : State} (h : EventsSound s.events) :
    EventsSound (lineupExpiry s).events := by
  refine h.whenActive ?_
  split
  · split
    · simp only [failLineup]
      split
      · exact .enterRundown (.post h)
      · exact .enterTripped (.post h)
    · exact h
  · exact h

theorem EventsSound.holdExpiry {s : State} (h : EventsSound s.events) :
    EventsSound (holdExpiry s).events := by
  refine h.whenActive ?_
  split
  · split
    · exact h.enterRundown
    · exact h
  · exact h

theorem EventsSound.rampStep {s : State} (h : EventsSound s.events) :
    EventsSound (rampStep s).events := by
  refine h.whenActive ?_
  split
  · exact .closeAtZero h
  · exact h

theorem EventsSound.closeExpiry {s : State} (h : EventsSound s.events) :
    EventsSound (closeExpiry s).events := by
  refine h.whenActive ?_
  split
  · exact h.enterTripped
  · exact h

theorem EventsSound.settleExpiry {s : State} (h : EventsSound s.events) :
    EventsSound (settleExpiry s).events := by
  refine h.whenActive ?_
  split
  · exact .judgeExit h
  · exact h

theorem EventsSound.directionEntry {s : State} (h : EventsSound s.events) :
    EventsSound (directionEntry s).events := by
  refine h.whenActive ?_
  split
  · exact .judgeExit h
  · exact h

/-! ### Every command -/

theorem exec_eventsSound {c : Instr} {s t : State} (h : EventsSound s.events)
    (hx : exec c s = .next t) : EventsSound t.events := by
  cases c with
  | reset => cases hx; exact eventsSound_reset
  | resetEnd => cases hx; exact h.endReset
  | startClockTick => cases hx; exact h.clockTick
  | scanTimerExpiry => cases hx; exact h.scanExpiry
  | readTransactionEnd reply => cases hx; exact h.readEnd reply
  | collision => cases hx; exact h.collide
  | eventAdmission => cases hx; exact h.admitEvent
  | statusTake => cases hx; exact h.takeStatus
  | silenceTimerExpiry n => rw [execSilenceTimerExpiry_next hx]; exact h.silenceExpiry n
  | queryAccount | queryEntry | queryPeer | queryQuantity | queryLines | queryStation =>
    cases hx; exact h.takeQuery _
  | mark =>
    cases hx
    exact h.takeBy _ fun f g t hg ht => by split at hg <;> cases hg; exact ht.markBy _ _
  | nominate =>
    cases hx
    exact h.takeBy _ fun f g t hg ht => by split at hg <;> cases hg; exact ht.nominateBy _ _ _
  | setup =>
    cases hx
    exact h.takeBy _ fun f g t hg ht => by split at hg <;> cases hg; exact ht.setupBy _ _ _
  | balance =>
    cases hx
    exact h.takeBy _ fun f g t hg ht => by split at hg <;> cases hg; exact ht.balanceBy _ _
  | retire =>
    cases hx
    exact h.takeBy _ fun f g t hg ht => by split at hg <;> cases hg; exact ht.retireBy _
  | clearTrip =>
    cases hx
    exact h.takeBy _ fun f g t hg ht => by split at hg <;> cases hg; exact ht.clearByFrame
  | clearUnit =>
    cases hx
    exact h.takeBy _ fun f g t hg ht => by split at hg <;> cases hg; exact ht.clearUnitBy _
  | clearTower =>
    cases hx
    exact h.takeBy _ fun f g t hg ht => by split at hg <;> cases hg; exact ht.clearTowerBy _
  | meterInterval => cases hx; exact h.interval
  | graceTimerExpiry => cases hx; exact h.graceExpiry
  | historyTimerExpiry => cases hx; exact h.historyExpiry
  | startTimeoutExpiry u => cases hx; exact h.startTimeout u
  | runFeedbackRelease u => cases hx; exact h.feedbackOff u
  | faultInputAssertion u => cases hx; exact h.faultOn u
  | dryerIncrementTake => cases hx; exact h.takeDryerIncrement
  | halfHeatPoint w => cases hx; exact h.halfHeat w
  | coolTimeExpiry w => cases hx; exact h.coolEnd w
  | dewOutUpdate => cases hx; exact h.takeDewUpdate
  | dryerRunningEntry => cases hx; exact h.dryerEntry
  | shareDelivery => cases hx; exact h.takeDelivery
  | compressorNotice => cases hx; exact h.takeNotice
  | valveFeedbackChange fb => cases hx; exact h.valveChange fb
  | estopInAssertion => cases hx; exact h.estopOn
  | clearInAssertion => cases hx; exact h.takeLine _ _ fun t ht => ht.clearByLine
  | lineupTimerExpiry => cases hx; exact h.lineupExpiry
  | holdTimerExpiry => cases hx; exact h.holdExpiry
  | rampStep => cases hx; exact h.rampStep
  | closeTimerExpiry => cases hx; exact h.closeExpiry
  | settleTimerExpiry => cases hx; exact h.settleExpiry
  | directionRunningEntry => cases hx; exact h.directionEntry
  | _ => exact h.of_keeps (exec_keeps _ hx) (by simp [touches])

/-- Settles O56: `exec_linkSound` and `exec_eventsSound` for the command at the front; an idle step
changes nothing. -/
theorem stepsKeepQueuesWithinTheirPlaces : Obligations.StepsKeepQueuesWithinTheirPlaces := by
  intro s t h
  obtain rfl | ⟨c, rest, -, hx⟩ := step_next h
  · exact ⟨id, id⟩
  · exact ⟨fun hl => exec_linkSound (s := s.withPending rest) hl hx,
      fun he => exec_eventsSound (s := s.withPending rest) he hx⟩

end Sys2Proof.Machine
end

section
/-! The pad link's commands one by one: the head frame starts, leaves, loses its send, is discarded; the
receiver begins, places and discards a frame. -/

namespace Sys2Proof.Machine

/-! ### The head frame starts and leaves (R22, R31, R32) -/

/-- The head frame starts after the recessive run it needs; the start bit clears its backoff mark
(R22, R24). -/
theorem startSend_head {s : State} {f : TxFrame} {rest : List TxFrame} (n : Nat) (ha : s.active = true)
    (hq : s.link.queue = f :: rest) (hs : s.link.sending = none) (hr : s.link.rx = .waiting) :
    startSend n s = if requiredRun s.cfg.ownAddress f ≤ n then s.withLink { s.link with
        queue := { f with backoff := false } :: rest
        sending := some (frameBytes (txKindCode f.kind) s.cfg.ownAddress f.payload) }
      else s := by
  rw [startSend, whenActive_on s _ ha]
  simp only [hq, hs, hr, true_and]

theorem headSent_head {s : State} {bytes : List Byte} {f : TxFrame} {rest : List TxFrame}
    (ha : s.active = true) (hs : s.link.sending = some bytes) (hq : s.link.queue = f :: rest) :
    headSent s = s.withLink (if f.kind = .status then
        holdAppended { s.link with sending := none, queue := rest }
      else { s.link with sending := none, queue := rest }) := by
  rw [headSent, whenActive_on s _ ha]
  simp only [hs, hq]

/-- A held STATUS takes the tail, and none is held any more (R32). -/
theorem holdAppended_eq (l : Link) : holdAppended l =
    { l with hold := none, queue := l.queue ++ l.hold.toList.map (newFrame .status) } := by
  cases l with
  | mk rx buffers overrun queue hold sending mark =>
    cases hold with
    | none => simp [holdAppended]
    | some p => rfl

theorem holdReplaces_none {l : Link} (h : l.hold = none) : holdReplaces l = l := by
  simp only [holdReplaces, h]

/-- What was held replaces the STATUS at the head, whose RX_OVERRUN it carries on (R30, R32). -/
theorem holdReplaces_head {l : Link} {p : List Byte} {f : TxFrame} {rest : List TxFrame}
    (h : l.hold = some p) (hq : l.queue = f :: rest) (hf : f.kind = .status) :
    holdReplaces l = { l with
      hold := none
      queue := { f with payload := carryOverrun f.payload p, collisions := 0 } :: rest } := by
  simp only [holdReplaces, h, hq, replaceStatus_head hf]

/-- Settles O15: `startSend_head` and `headSent_head`. -/
theorem headFrameStartsAndLeaves : Obligations.HeadFrameStartsAndLeaves := by
  refine ⟨fun n f rest s ha hq hs hr => congrArg Host.Outcome.next (startSend_head n ha hq hs hr),
    fun bytes f rest s ha hs hq => ⟨fun hf p hp => congrArg Host.Outcome.next ?held,
      fun hn => congrArg Host.Outcome.next ?free⟩⟩
  case held =>
    rw [headSent_head ha hs hq, if_pos hf, holdAppended_eq]
    dsimp only
    rw [hp]
    rfl
  case free =>
    rw [headSent_head ha hs hq]
    split
    · next hf =>
      have hh : s.link.hold = none := hn.resolve_left (absurd hf)
      simp only [holdAppended, hh]
      rfl
    · rfl

/-! ### A lost arbitration and a collision (R23, R24, R30) -/

/-- At a recessive kind or sender bit the send stops and the winner's frame is received (R23). -/
theorem loseArbitration_recessive {s : State} {bit : Nat} {bytes : List Byte} (ha : s.active = true)
    (hs : s.link.sending = some bytes) (hb : (arbitrationBits bytes)[bit]? = some true) :
    loseArbitration bit s = s.withLink (if headIsStatus s.link.queue = true then
        holdReplaces { s.link with sending := none, rx := .taking }
      else { s.link with sending := none, rx := .taking }) := by
  have hd : (arbitrationBits bytes).getD bit false = true := by rw [List.getD_eq_getElem?_getD, hb]; rfl
  rw [loseArbitration, whenActive_on s _ ha]
  simp only [hs, hd, if_true]

theorem headIsStatus_cons (f : TxFrame) (rest : List TxFrame) :
    headIsStatus (f :: rest) = true ↔ f.kind = .status := decide_eq_true_iff

/-- Below the 16th collision the head stays, its count raised and its backoff mark set (R24). -/
theorem collide_below {s : State} {bytes : List Byte} {f : TxFrame} {rest : List TxFrame}
    (ha : s.active = true) (hs : s.link.sending = some bytes) (hq : s.link.queue = f :: rest)
    (hc : f.collisions + 1 < 16) :
    collide s = s.withLink (if f.kind = .status then
        holdReplaces { s.link with
          sending := none, rx := .taking
          queue := { f with collisions := f.collisions + 1, backoff := true } :: rest }
      else { s.link with
        sending := none, rx := .taking
        queue := { f with collisions := f.collisions + 1, backoff := true } :: rest }) := by
  rw [collide, whenActive_on s _ ha]
  simp only [hs, hq, Config.collisionLimit, hc, if_true]

/-- At the 16th collision the head is discarded with LINK_TX_FAIL; a STATUS leaves the RX_OVERRUN that it
carried and its place to a held one (R24, R30, R32). -/
theorem collide_last {s : State} {bytes : List Byte} {f : TxFrame} {rest : List TxFrame}
    (ha : s.active = true) (hs : s.link.sending = some bytes) (hq : s.link.queue = f :: rest)
    (hc : 16 ≤ f.collisions + 1) :
    collide s = post .linkTxFail (txKindCode f.kind) (s.withLink (if f.kind = .status then
        holdAppended { s.link with
          sending := none, rx := .taking, queue := rest
          overrun := s.link.overrun || statusOverrun f.payload }
      else { s.link with sending := none, rx := .taking, queue := rest })) := by
  rw [collide, whenActive_on s _ ha]
  simp only [hs, hq, Config.collisionLimit, Nat.not_lt.2 hc, if_false]

/-- Settles O16: `loseArbitration_recessive`, `collide_below` and `collide_last`, each by what is held. -/
theorem lostSendsKeepOrDiscardTheHeadFrame : Obligations.LostSendsKeepOrDiscardTheHeadFrame := by
  refine ⟨fun bit bytes f rest s ha hs hq hb => ⟨fun p hf hp => congrArg Host.Outcome.next ?lostHeld,
      fun hn => congrArg Host.Outcome.next ?lostFree⟩,
    fun bytes f rest s ha hs hq => ⟨fun hc hn => congrArg Host.Outcome.next ?belowFree,
      fun p hc hf hp => congrArg Host.Outcome.next ?belowHeld,
      fun hc hf => congrArg Host.Outcome.next ?lastOther,
      fun hc hf => congrArg Host.Outcome.next ?lastStatus⟩⟩
  case lostHeld =>
    rw [loseArbitration_recessive ha hs hb, hq, if_pos ((headIsStatus_cons f rest).2 hf),
      holdReplaces_head (l := { s.link with sending := none, rx := .taking }) hp hq hf]
    rfl
  case lostFree =>
    rw [loseArbitration_recessive ha hs hb, hq]
    split
    · next hf =>
      rw [holdReplaces_none (l := { s.link with sending := none, rx := .taking })
        (hn.resolve_left (absurd ((headIsStatus_cons f rest).1 hf)))]
      rfl
    · rfl
  case belowFree =>
    rw [collide_below ha hs hq hc]
    split
    · next hf =>
      rw [holdReplaces_none (l := { s.link with
        sending := none, rx := .taking
        queue := { f with collisions := f.collisions + 1, backoff := true } :: rest })
        (hn.resolve_left (absurd hf))]
      rfl
    · rfl
  case belowHeld =>
    rw [collide_below ha hs hq hc, if_pos hf, holdReplaces_head (l := { s.link with
        sending := none, rx := .taking
        queue := { f with collisions := f.collisions + 1, backoff := true } :: rest }) hp rfl hf]
    rfl
  case lastOther =>
    rw [collide_last ha hs hq hc, if_neg hf]
    rfl
  case lastStatus =>
    rw [collide_last ha hs hq hc, if_pos hf, hf, holdAppended_eq]
    dsimp only
    cases s.link.hold <;> rfl

/-! ### The receiver (R25, R28, R36) -/

theorem linkFollows_of_active {s : State} (ha : s.active = true) : linkFollows s = true := by
  simp [linkFollows, ha]

theorem linkFollows_of_duplicate {s : State} (hd : s.startup.station = .duplicate) :
    linkFollows s = true := by
  simp [linkFollows, hd]

theorem startBit_waiting {s : State} (hf : linkFollows s = true) (hr : s.link.rx = .waiting)
    (hs : s.link.sending = none) : startBit s = setRx .taking s := if_pos ⟨hf, hr, hs⟩

theorem breakOff_taking {s : State} (hf : linkFollows s = true) (hr : s.link.rx = .taking) :
    breakOff s = setRx .waiting s := if_pos ⟨hf, hr⟩

theorem longHeader_taking {s : State} {h1 : Byte} (hf : linkFollows s = true) (hr : s.link.rx = .taking)
    (hl : 24 < h1.toNat % 64) : longHeader h1 s = setRx .waiting s := if_pos ⟨hf, hr, hl⟩

theorem receiveFrame_discarded {s : State} {bytes : List Byte} (ha : s.active = true)
    (hr : s.link.rx = .taking) (hb : acceptFrame s.cfg bytes = none) :
    receiveFrame bytes s = setRx .waiting s := by
  rw [receiveFrame, if_pos ⟨linkFollows_of_active ha, hr⟩]
  simp only [ha, hb, if_true]

theorem receiveFrame_accepted {s : State} {bytes : List Byte} {f : RxFrame} (ha : s.active = true)
    (hr : s.link.rx = .taking) (hb : acceptFrame s.cfg bytes = some f) :
    receiveFrame bytes s = s.withLink (placeFrame f { s.link with rx := .waiting }) := by
  rw [receiveFrame, if_pos ⟨linkFollows_of_active ha, hr⟩]
  simp only [ha, hb, if_true]
  rfl

/-- In DUPLICATE every frame is discarded (R36). -/
theorem receiveFrame_duplicate {s : State} {bytes : List Byte} (hd : s.startup.station = .duplicate)
    (hr : s.link.rx = .taking) : receiveFrame bytes s = setRx .waiting s := by
  have ha : s.active = false := inactive_of_ne (by simp [hd]) (by simp [hd])
  rw [receiveFrame, if_pos ⟨linkFollows_of_duplicate hd, hr⟩]
  simp [ha]

theorem placeFrame_free {l : Link} (f : RxFrame) (h : l.buffers.length < 2) :
    placeFrame f l = { l with buffers := l.buffers ++ [f] } := if_pos h

/-- A frame that finds no free buffer is lost with RX_OVERRUN (R28). -/
theorem placeFrame_full {l : Link} (f : RxFrame) (h : 2 ≤ l.buffers.length) :
    placeFrame f l = { l with overrun := true } := if_neg (Nat.not_lt.2 h)

/-- Settles O17: the lemmas above, command by command. -/
theorem receiverTakesPlacesAndDiscards : Obligations.ReceiverTakesPlacesAndDiscards := by
  refine ⟨fun s ha hr hs => congrArg Host.Outcome.next (startBit_waiting (linkFollows_of_active ha) hr hs),
    fun bytes s ha hr => ⟨fun hb => congrArg Host.Outcome.next (receiveFrame_discarded ha hr hb),
      fun f hb h2 => congrArg Host.Outcome.next ?free, fun f hb h2 => congrArg Host.Outcome.next ?full⟩,
    fun bytes s hd hr => congrArg Host.Outcome.next (receiveFrame_duplicate hd hr),
    fun s ha hr => congrArg Host.Outcome.next (breakOff_taking (linkFollows_of_active ha) hr),
    fun h0 h1 s ha hr hl =>
      congrArg Host.Outcome.next (longHeader_taking (linkFollows_of_active ha) hr hl)⟩
  case free =>
    rw [receiveFrame_accepted ha hr hb, placeFrame_free f (by exact h2)]
    rfl
  case full =>
    rw [receiveFrame_accepted ha hr hb, placeFrame_full f (by exact h2)]
    rfl

end Sys2Proof.Machine
end

section
/-! The state after reset meets every invariant of Safety.lean. -/

namespace Sys2Proof.Machine

theorem dryerSound_reset : DryerSound Dryer.reset DriveReqs.reset := by
  unfold DryerSound
  decide

theorem unitsSound_reset : UnitsSound Compressor.reset DriveReqs.reset := ⟨rfl, rfl⟩

theorem directionSound_reset : DirectionSound Direction.reset DriveReqs.reset :=
  ⟨rfl, rfl, rfl, rfl, by decide, by decide, fun _ _ _ => ⟨rfl, rfl⟩⟩

theorem mem_stack_reset (i : Nat) : i ∈ Accounts.reset.stack ↔ 1 ≤ i ∧ i ≤ 48 := by
  show i ∈ (List.range 48).map (· + 1) ↔ _
  simp only [List.mem_map, List.mem_range]
  constructor
  · rintro ⟨j, hj, rfl⟩
    omega
  · rintro ⟨h1, h48⟩
    exact ⟨i - 1, by omega, by omega⟩

/-- Every record but the holding account's is free (R169). -/
theorem acc_reset_blank (i : Nat) (h : 1 ≤ i) : Accounts.reset.acc i = AccRec.blank := by
  obtain ⟨j, rfl⟩ := Nat.exists_eq_add_of_le' h
  show (List.replicate 48 AccRec.blank).getD j AccRec.blank = AccRec.blank
  rw [List.getD_eq_getElem?_getD, List.getElem?_replicate]
  split <;> rfl

/-- Every bucket is empty and every index free (R169, R170, R171). -/
theorem chainsSound_reset : ChainsSound Accounts.reset := by
  have absent (i : Nat) (h1 : 1 ≤ i) : (Accounts.reset.acc i).present ≠ true := by
    simp [acc_reset_absent i h1]
  refine chainsSound_of (fun _ => []) rfl (fun i h49 h1 => ?_) (fun b hb => ?_)
    (fun _ _ => List.nodup_nil) (fun _ _ i hi => absurd hi List.not_mem_nil)
    (fun i _ h1 hp => absurd hp (absent i h1)) (fun i _ h1 hp => absurd hp (absent i h1))
  · exact iff_of_false (absent i h1) fun h => h ((mem_stack_reset i).2 ⟨h1, by omega⟩)
  · show (List.replicate 16 none).getD b none = none
    rw [List.getD_eq_getElem?_getD, List.getElem?_replicate, if_pos hb]
    rfl

theorem accountsSound_reset : AccountsSound Accounts.reset := by
  have noNomination (t : TableId) (i : Nat) : (Accounts.reset.entry t i).nomination = none := by
    rw [entry_reset]
    rfl
  refine ⟨rfl, rfl, rfl, rfl, by decide, by decide, by decide, rfl, rfl, chainsSound_reset, ?stack,
    ?free, ?rights, by decide, fun _ => rfl, by decide, by decide⟩
  case stack => exact List.nodup_range.map (fun i j h => Nat.succ.inj h)
  case free =>
    intro i hi
    obtain ⟨h1, h48⟩ := (mem_stack_reset i).1 hi
    exact ⟨h1, h48, by rw [acc_reset_blank i h1]; rfl, noNomination _ i, noNomination _ i⟩
  case rights =>
    intro i _
    have within (t : TableId) : WithinRights (Accounts.reset.acc i) (Accounts.reset.entry t i) := by
      intro n hn
      rw [noNomination t i] at hn
      cases hn
    exact ⟨within _, within _⟩

/-- Settles O60: block by block; the idle part is the reset of the reset state's. -/
theorem resetIsSound : Obligations.ResetIsSound :=
  ⟨linkSound_reset, eventsSound_reset, dryerSound_reset, unitsSound_reset, directionSound_reset,
    accountsSound_reset, IdleAtReset.of_resetPart State.reset⟩

end Sys2Proof.Machine
end

section
/-! Received frames (R26, R27, R37 to R40): what an accepted frame has passed, how the payload of each
kind reads, and that a STATUS reads back as it was sent. -/

namespace Sys2Proof.Machine

/-! ### The frame checks -/

/-- Each kind with a consumer and its length (R27, R38). -/
theorem kindLength_mem {kind n : Nat} (h : kindLength kind = some n) :
    (kind, n) ∈ [(1, 4), (2, 7), (3, 8), (4, 8), (5, 2), (6, 1), (7, 21), (8, 4)] := by
  unfold kindLength at h
  split at h <;> cases h <;> decide

theorem senderOk_status (img : Image) (sender : Nat) :
    senderOk img 7 sender = true ↔ 1 ≤ sender ∧ sender ≤ 32 := by
  simp [senderOk, isStation]

theorem senderOk_terminal (img : Image) {kind : Nat} (hk : kind ≠ 7) (sender : Nat) :
    senderOk img kind sender = true ↔ sender ∈ img.terminals := by
  simp [senderOk, isTerminal, hk]

/-- A list with one byte more than `n` is its first `n` bytes and that one. -/
theorem eq_take_concat {l : List Byte} {n : Nat} (h : l.length = n + 1) :
    l = l.take n ++ [l.getD n 0] := by
  have hn : n < l.length := by omega
  rw [List.getD_eq_getElem _ _ hn, List.take_append_getElem hn, List.take_of_length_le (by omega)]

/-- What an accepted frame has passed (R26, R27): the frame's fields, and its CRC at its end. -/
theorem acceptFrame_some {img : Image} {bytes : List Byte} {f : RxFrame}
    (h : acceptFrame img bytes = some f) : ∃ h0 h1 payload,
      bytes = h0 :: h1 :: (payload ++ [crc8 (h0 :: h1 :: payload)]) ∧
      payload.length = headerLen h1 ∧ headerLen h1 ≤ 24 ∧
      kindLength (headerKind h0) = some (headerLen h1) ∧
      senderOk img (headerKind h0) (headerSender h0 h1) = true ∧
      f.sender = headerSender h0 h1 ∧
      f.dup = (decide (headerKind h0 = 7) && decide (headerSender h0 h1 = img.ownAddress)) := by
  unfold acceptFrame at h
  split at h
  · next h0 h1 rest =>
    dsimp only at h
    split at h
    · next hc =>
      obtain ⟨h24, hlen, hcrc, hkind, hsender⟩ := hc
      obtain ⟨body, -, rfl⟩ := Option.map_eq_some_iff.1 h
      refine ⟨h0, h1, rest.take (headerLen h1), ?_, ?_, h24, hkind, hsender, rfl, rfl⟩
      · rw [hcrc, ← eq_take_concat hlen]
      · rw [List.length_take, hlen]
        omega
    · cases h
  · cases h

/-- A frame of a listed terminal is judged by its payload (R26, R27). -/
theorem acceptFrame_terminal {img : Image} {kind sender : Nat} {p : List Byte} {r : Option RxBody}
    (hs : sender ∈ img.terminals) (h63 : sender ≤ 63) (hk : kind ≠ 7)
    (hl : kindLength kind = some p.length) (hr : readBody kind p = r) :
    acceptFrame img (frameBytes kind sender p) =
      r.map (fun b => { sender := sender, dup := false, body := b }) := by
  rw [acceptFrame_frameBytes img kind sender p h63 hl ((senderOk_terminal img hk sender).2 hs), hr]
  simp [hk]

/-! ### The payload of each terminal kind (R40) -/

theorem readBody_mark (b0 b1 b2 b3 : Byte) :
    readBody 1 [b0, b1, b2, b3] = some (.mark (b0 ++ b1) (b2 ++ b3).toNat) := by
  show some (RxBody.mark (beWord [b0, b1]) (beNat [b2, b3])) = _
  rw [beWord_two, beNat_two]

theorem readBody_nominate (b0 b1 b2 b3 b4 b5 b6 : Byte) :
    readBody 2 [b0, b1, b2, b3, b4, b5, b6] = if (b4 ++ b5 ++ b6).toInt = -8388608 then none
      else some (.nominate (b0 ++ b1) (b2 ++ b3).toNat (b4 ++ b5 ++ b6).toInt) := by
  show (if beInt [b4, b5, b6] = -8388608 then none
    else some (RxBody.nominate (beWord [b0, b1]) (beNat [b2, b3]) (beInt [b4, b5, b6]))) = _
  rw [beInt_three, beWord_two, beNat_two]

theorem readBody_setup (b0 b1 b2 b3 b4 b5 b6 b7 : Byte) :
    readBody 3 [b0, b1, b2, b3, b4, b5, b6, b7] =
      if (b2 ++ b3 ++ b4).toNat ≤ 2000000 ∧ (b5 ++ b6 ++ b7).toNat ≤ 2000000 then
        some (.setup (b0 ++ b1).toNat (b2 ++ b3 ++ b4).toNat (b5 ++ b6 ++ b7).toNat)
      else none := by
  show (if beNat [b2, b3, b4] ≤ 2000000 ∧ beNat [b5, b6, b7] ≤ 2000000 then
    some (RxBody.setup (beNat [b0, b1]) (beNat [b2, b3, b4]) (beNat [b5, b6, b7])) else none) = _
  rw [beNat_two, beNat_three, beNat_three]

theorem readBody_balance (b0 b1 b2 b3 b4 b5 b6 b7 : Byte) :
    readBody 4 [b0, b1, b2, b3, b4, b5, b6, b7] =
      some (.balance (b0 ++ b1).toNat (b2 ++ b3 ++ b4 ++ b5 ++ b6 ++ b7).toInt) := by
  show some (RxBody.balance (beNat [b0, b1]) (beInt [b2, b3, b4, b5, b6, b7])) = _
  rw [beNat_two, beInt_six]

theorem readBody_retire (b0 b1 : Byte) : readBody 5 [b0, b1] = some (.retire (b0 ++ b1).toNat) := by
  show some (RxBody.retire (beNat [b0, b1])) = _
  rw [beNat_two]

theorem clearTargetOf_outside {n : Nat} (h : n = 0 ∨ 5 < n) : clearTargetOf n = none := by
  unfold clearTargetOf
  split
  case h_6 => rfl
  all_goals omega

theorem tableRoleOf_outside {n : Nat} (h : n = 0 ∨ 3 < n) : tableRoleOf n = none := by
  unfold tableRoleOf
  split
  case h_4 => rfl
  all_goals omega

/-- A byte that is 0 or above a bound, as a number. -/
theorem toNat_outside {b : Byte} {n : Nat} (h : b = 0#8 ∨ n < b.toNat) : b.toNat = 0 ∨ n < b.toNat :=
  h.imp_left fun e => by rw [e]; rfl

theorem readBody_clear_outside {b0 : Byte} (h : b0 = 0#8 ∨ 5 < b0.toNat) : readBody 6 [b0] = none := by
  show (clearTargetOf (beNat [b0])).map RxBody.clear = none
  rw [beNat_one, clearTargetOf_outside (toNat_outside h)]
  rfl

theorem readBody_account (b1 b2 b3 : Byte) :
    readBody 8 [1#8, b1, b2, b3] = some (.query (.account (b1 ++ b2).toNat)) := by
  show some (RxBody.query (.account (beNat [b1, b2]))) = _
  rw [beNat_two]

theorem readBody_entry (b1 b2 b3 : Byte) : readBody 8 [2#8, b1, b2, b3] =
    (tableRoleOf b1.toNat).map (fun r => .query (.entry r (b2 ++ b3).toNat)) := by
  show ((tableRoleOf (beNat [b1])).map (fun r => Query.entry r (beNat [b2, b3]))).map RxBody.query = _
  rw [beNat_one, beNat_two, Option.map_map]
  rfl

theorem readBody_entry_outside {b1 : Byte} (b2 b3 : Byte) (h : b1 = 0#8 ∨ 3 < b1.toNat) :
    readBody 8 [2#8, b1, b2, b3] = none := by
  rw [readBody_entry, tableRoleOf_outside (toNat_outside h)]
  rfl

theorem readBody_peer (b1 b2 b3 : Byte) :
    readBody 8 [3#8, b1, b2, b3] = some (.query (.peer b1.toNat)) := by
  show some (RxBody.query (.peer (beNat [b1]))) = _
  rw [beNat_one]

theorem readBody_quantity (b1 b2 b3 : Byte) :
    readBody 8 [4#8, b1, b2, b3] = some (.query (.quantity b1.toNat)) := by
  show some (RxBody.query (.quantity (beNat [b1]))) = _
  rw [beNat_one]

theorem readQuery_outside {b0 : Byte} (b1 b2 b3 : Byte) (h : b0.toNat = 0 ∨ 6 < b0.toNat) :
    readQuery [b0, b1, b2, b3] = none := by
  have e : fieldU 0 1 [b0, b1, b2, b3] = b0.toNat := beNat_one b0
  unfold readQuery
  split
  case h_7 => rfl
  all_goals omega

theorem readBody_query_outside {b0 : Byte} (b1 b2 b3 : Byte) (h : b0 = 0#8 ∨ 6 < b0.toNat) :
    readBody 8 [b0, b1, b2, b3] = none := by
  show (readQuery [b0, b1, b2, b3]).map RxBody.query = none
  rw [readQuery_outside b1 b2 b3 (toNat_outside h)]
  rfl

/-- Settles O18: `acceptFrame_some`, and `acceptFrame_terminal` with the payload of each kind. -/
theorem acceptedFramesPassTheFrameChecks : Obligations.AcceptedFramesPassTheFrameChecks := by
  constructor
  · intro img bytes f h
    obtain ⟨h0, h1, payload, hbytes, hlen, h24, hkind, hok, hsender, hdup⟩ := acceptFrame_some h
    have status (hk : h0.toNat / 16 = 7) : 1 ≤ f.sender ∧ f.sender ≤ 32 := by
      rw [show headerKind h0 = 7 from hk] at hok
      rw [hsender]
      exact (senderOk_status img _).1 hok
    have terminal (hk : h0.toNat / 16 ≠ 7) : f.sender ∈ img.terminals := by
      rw [hsender]
      exact (senderOk_terminal img hk _).1 hok
    refine ⟨h0, h1, payload, hbytes, hlen, hlen ▸ h24, hsender, ?_, status, terminal, ?_⟩
    · rw [hlen]
      exact kindLength_mem hkind
    · rw [hdup, hsender, Bool.and_eq_true, decide_eq_true_iff, decide_eq_true_iff]
      rfl
  · intro img sender b0 b1 b2 b3 b4 b5 b6 b7 hs h63 takes discards
    have taken {kind : Nat} {p : List Byte} {body : RxBody} (hk : kind ≠ 7)
        (hl : kindLength kind = some p.length) (hr : readBody kind p = some body) :
        takes kind p body := acceptFrame_terminal hs h63 hk hl hr
    have discarded {kind : Nat} {p : List Byte} (hk : kind ≠ 7)
        (hl : kindLength kind = some p.length) (hr : readBody kind p = none) :
        discards kind p := acceptFrame_terminal hs h63 hk hl hr
    refine ⟨taken (by decide) rfl (readBody_mark ..),
      fun h => taken (by decide) rfl ((readBody_nominate ..).trans (if_neg h)),
      fun h => discarded (by decide) rfl ((readBody_nominate ..).trans (if_pos h)),
      fun h => taken (by decide) rfl ((readBody_setup ..).trans (if_pos h)),
      fun h => discarded (by decide) rfl ((readBody_setup ..).trans (if_neg (by omega))),
      taken (by decide) rfl (readBody_balance ..),
      taken (by decide) rfl (readBody_retire ..),
      taken (by decide) rfl rfl, taken (by decide) rfl rfl, taken (by decide) rfl rfl,
      taken (by decide) rfl rfl, taken (by decide) rfl rfl,
      fun h => discarded (by decide) rfl (readBody_clear_outside h),
      taken (by decide) rfl (readBody_account ..),
      taken (by decide) rfl (readBody_entry ..), taken (by decide) rfl (readBody_entry ..),
      taken (by decide) rfl (readBody_entry ..),
      fun h => discarded (by decide) rfl (readBody_entry_outside b2 b3 h),
      taken (by decide) rfl (readBody_peer ..),
      taken (by decide) rfl (readBody_quantity ..),
      taken (by decide) rfl rfl, taken (by decide) rfl rfl,
      fun h => discarded (by decide) rfl (readBody_query_outside b1 b2 b3 h)⟩

/-! ### A STATUS sent and received (R37, R39) -/

/-- Every field of a STATUS payload at its place, read back where it holds its value. -/
theorem readStatus_statusPayload {f : StatusFields} (hi : f.aInj < 2 ^ 24) (hw : f.aWd < 2 ^ 24)
    (hp : f.p < 2 ^ 24) (hl : -(2 ^ 23) ≤ f.flow) (hu : f.flow < 2 ^ 23) :
    readStatus (statusPayload f) = f := by
  have unsigned {n : Nat} (h : n < 2 ^ 24) : beNat (putU 3 n) = n :=
    beNat_putU 3 n (Int.natCast_nonneg n) (by omega)
  calc readStatus (statusPayload f)
      = { dirCode := f.dirCode, flags := beWord (putWord f.flags), aInj := beNat (putU 3 f.aInj)
          aWd := beNat (putU 3 f.aWd), flow := beInt (putS 3 f.flow), p := beNat (putU 3 f.p)
          openSeq := beWord (putWord f.openSeq), digest := beWord (putWord f.digest)
          signature := beWord (putWord f.signature) } := rfl
    _ = f := by
      rw [unsigned hi, unsigned hw, unsigned hp, beInt_putS 3 f.flow (by decide) hl hu]
      simp only [beWord_putWord]

/-- Settles O19: `readStatus_statusPayload` in a frame that passes the checks. -/
theorem statusSentIsTheStatusReceived : Obligations.StatusSentIsTheStatusReceived := by
  intro img sender f h1 h32 hi hw hp hl hu
  have hbody : readBody 7 (statusPayload f) = some (.status f) :=
    congrArg (fun x => some (RxBody.status x)) (readStatus_statusPayload hi hw hp hl hu)
  rw [acceptFrame_frameBytes img 7 sender (statusPayload f) (by omega) rfl
    ((senderOk_status img sender).2 ⟨h1, h32⟩), hbody]
  rfl

end Sys2Proof.Machine
end

section
/-! What enters the transmit queue: an offered STATUS (R30, R32), the EVENT and the closing REPORT
(R33, R34, R41, R42, R182, R195); and the fields of a STATUS (R39, R58, R185, R186). -/

namespace Sys2Proof.Machine

/-! ### Layouts (R39, R41, R42) -/

/-- A field that holds its value does not saturate (R37). -/
theorem satU_of_lt {bits n : Nat} (h : n < 2 ^ bits) : satU bits n = n := by
  have c : ((2 ^ bits : Nat) : Int) = (2 : Int) ^ bits := by norm_cast
  rw [satU, min_eq_right (by omega), max_eq_right (Int.natCast_nonneg n), Int.toNat_natCast]

/-- A 16-bit word is an unsigned field of two bytes that always holds its value. -/
theorem putWord_eq_putU (w : Word16) : putWord w = putU 2 w.toNat := by
  rw [putWord, putU, satU_of_lt w.isLt]

theorem statusPayload_eq (f : StatusFields) : statusPayload f =
    [f.dirCode] ++ putU 2 f.flags.toNat ++ putU 3 f.aInj ++ putU 3 f.aWd ++ putS 3 f.flow ++
      putU 3 f.p ++ putU 2 f.openSeq.toNat ++ putU 2 f.digest.toNat ++ putU 2 f.signature.toNat := by
  simp only [statusPayload, putWord_eq_putU, List.singleton_append]

theorem closingPayload_eq (seq : Word16) (code : Nat) (e : Entry) : closingPayload seq code e =
    [7#8, BitVec.ofNat 8 (3 + (if e.nomination.isSome then 4 else 0) + (if e.curtailed then 8 else 0))] ++
      putU 2 seq.toNat ++ putU 2 code ++ putS 3 (e.nomination.getD 0) ++ putU 4 e.injected ++
      putU 4 e.withdrawn ++ putU 3 e.fuel ++ putU 4 e.offSpec := by
  have hmark : entryMark .closedRole e =
      3 + (if e.nomination.isSome then 4 else 0) + (if e.curtailed then 8 else 0) := rfl
  have hselector : putU 1 closingSelector = [7#8] := putU_byte (by decide)
  rw [closingPayload, putU_byte (entryMark_lt _ e), putWord_eq_putU, hmark, hselector]
  simp only [entryColumns, List.append_assoc, List.cons_append, List.nil_append]

theorem qualifies_iff (table : List Entry) (i : Nat) : qualifies table i = true ↔
    (let e := table.getD i Entry.blank
     i = 0 ∨ e.nomination ≠ none ∨ e.injected ≠ 0 ∨ e.withdrawn ≠ 0 ∨ e.fuel ≠ 0 ∨ e.offSpec ≠ 0) := by
  simp only [qualifies, hasColumn, Bool.or_eq_true, decide_eq_true_eq, Option.isSome_iff_ne_none, or_assoc]

/-! ### An offered STATUS (R30, R32) -/

theorem offerStatus_held {l : Link} {f : TxFrame} {rest : List TxFrame} (p : List Byte)
    (hq : l.queue = f :: rest) (hf : f.kind = .status) (hs : l.sending ≠ none) :
    offerStatus p l = { l with
      overrun := false
      hold := some (match l.hold with
        | some h => carryOverrun h p
        | none => p) } := if_pos ((statusInTransmission_cons hq).2 ⟨hs, hf⟩)

/-- The queued STATUS, not in transmission, is replaced in its place. -/
theorem offerStatus_replaces {l : Link} {before after : List TxFrame} {f : TxFrame} (p : List Byte)
    (hq : l.queue = before ++ f :: after) (hb : ∀ g ∈ before, g.kind ≠ .status) (hf : f.kind = .status)
    (hs : l.sending = none ∨ before ≠ []) :
    offerStatus p l = { l with
      overrun := false
      queue := before ++ { f with payload := carryOverrun f.payload p, collisions := 0 } :: after } := by
  have ht : statusInTransmission l ≠ true := by
    cases before with
    | nil => exact fun h => ((statusInTransmission_cons hq).1 h).1 (hs.resolve_right (absurd rfl))
    | cons g before =>
      have hg : g.kind ≠ .status := hb g List.mem_cons_self
      exact fun h => hg ((statusInTransmission_cons (rest := before ++ f :: after) hq).1 h).2
  have hst : hasStatus l.queue = true := (hasStatus_iff _).2 ⟨f, by simp [hq], hf⟩
  rw [offerStatus, if_neg ht, if_pos hst, hq, replaceStatus_append hb hf]

theorem offerStatus_appends {l : Link} (p : List Byte) (hn : ∀ g ∈ l.queue, g.kind ≠ .status) :
    offerStatus p l = { l with overrun := false, queue := l.queue ++ [newFrame .status p] } := by
  have ht : statusInTransmission l ≠ true := by
    cases hq : l.queue with
    | nil => simp [statusInTransmission, headIsStatus, hq]
    | cons g rest => exact fun h => hn g (by simp [hq]) ((statusInTransmission_cons hq).1 h).2
  have hst : hasStatus l.queue ≠ true := Bool.eq_false_iff.1 ((hasStatus_false_iff _).2 hn)
  rw [offerStatus, if_neg ht, if_neg hst]

/-- The offer clears RX_OVERRUN, which its payload carries (R30). -/
theorem offerStatus_overrun (p : List Byte) (l : Link) : (offerStatus p l).overrun = false := by
  unfold offerStatus
  split
  · rfl
  · split <;> rfl

/-! ### The two feeders (R33, R34, R182, R195) -/

theorem mayAdmit_iff (l : Link) : mayAdmit l = true ↔ l.queue.length ≤ 6 := decide_eq_true_iff

theorem admitEvent_admits {s : State} {e : EventRec} {rest : List EventRec} (ha : s.active = true)
    (hq : s.events.queue = e :: rest) (h6 : s.link.queue.length ≤ 6)
    (hm : s.accounts.cursor = none ∨ s.link.mark = .cursor) :
    admitEvent s = (s.withLink { enqueueFrame .event (eventPayload e) s.link with
      mark := .eventQueue }).withEvents (dropOldest s.events) := by
  have hturn : ¬(s.accounts.cursor.isSome = true ∧ s.link.mark = .eventQueue) := by
    rintro ⟨hc, hmark⟩
    obtain hm | hm := hm
    · rw [hm] at hc
      cases hc
    · rw [hm] at hmark
      cases hmark
  rw [admitEvent, whenActive_on s _ ha]
  simp only [hq]
  exact if_pos ⟨(mayAdmit_iff _).2 h6, hturn⟩

theorem admitEvent_waits {s : State} (ha : s.active = true)
    (h : 6 < s.link.queue.length ∨ (s.accounts.cursor ≠ none ∧ s.link.mark = .eventQueue)) :
    admitEvent s = s := by
  rw [admitEvent, whenActive_on s _ ha]
  split
  · rfl
  · refine if_neg fun ⟨hm, hturn⟩ => ?_
    obtain h6 | ⟨hc, hmark⟩ := h
    · exact Nat.not_lt.2 ((mayAdmit_iff _).1 hm) h6
    · exact hturn ⟨Option.isSome_iff_ne_none.2 hc, hmark⟩

theorem dropOldest_cons {ev : Events} {e : EventRec} {rest : List EventRec} (hq : ev.queue = e :: rest) :
    dropOldest ev = { ev with queue := rest, lost := ev.lost && decide (rest ≠ []) } := by
  simp only [dropOldest, hq, List.tail_cons]

theorem admitClosing_admits {s : State} {i : Nat} (ha : s.active = true)
    (hc : s.accounts.cursor = some i) (h6 : s.link.queue.length ≤ 6)
    (hm : s.events.queue = [] ∨ s.link.mark = .eventQueue) :
    admitClosing s = (s.withLink { enqueueFrame .report (closingReport s.accounts i) s.link with
      mark := .cursor }).withAccounts (cursorMoved i s.accounts) := by
  have hturn : ¬(s.events.queue ≠ [] ∧ s.link.mark = .cursor) := by
    rintro ⟨hq, hmark⟩
    obtain hm | hm := hm
    · exact hq hm
    · rw [hm] at hmark
      cases hmark
  rw [admitClosing, whenActive_on s _ ha]
  simp only [hc]
  exact if_pos ⟨(mayAdmit_iff _).2 h6, hturn⟩

theorem admitClosing_waits {s : State} (ha : s.active = true)
    (h : 6 < s.link.queue.length ∨ (s.events.queue ≠ [] ∧ s.link.mark = .cursor)) :
    admitClosing s = s := by
  rw [admitClosing, whenActive_on s _ ha]
  split
  · rfl
  · refine if_neg fun ⟨hm, hturn⟩ => ?_
    obtain h6 | hwaits := h
    · exact Nat.not_lt.2 ((mayAdmit_iff _).1 hm) h6
    · exact hturn hwaits

/-- The first qualifying index from one on. -/
theorem qualifyingFrom_head {t : List Entry} {i j : Nat} (hij : i ≤ j) (hj : j ≤ 48)
    (hq : qualifies t j = true) (hn : ∀ k, i ≤ k → k < j → qualifies t k = false) :
    ∃ more, qualifyingFrom t i = j :: more := by
  rw [← List.head?_eq_some_iff, qualifyingFrom, List.head?_filter, List.find?_range_eq_some]
  refine ⟨by simp [hij, hq], List.mem_range.2 (by omega), fun k hk => ?_⟩
  by_cases hik : i ≤ k
  · simp [hn k hik hk]
  · simp [hik]

theorem qualifyingFrom_nil {t : List Entry} {i : Nat}
    (hn : ∀ k, i ≤ k → k ≤ 48 → qualifies t k = false) : qualifyingFrom t i = [] := by
  refine List.filter_eq_nil_iff.2 fun k hk => ?_
  have h49 := List.mem_range.1 hk
  by_cases hik : i ≤ k
  · simp [hn k hik (by omega)]
  · simp [hik]

theorem cursorMoved_next {a : Accounts} {i j : Nat} (hij : i < j) (hj : j ≤ 48)
    (hq : qualifies (a.table a.closedT) j = true)
    (hn : ∀ k, i < k → k < j → qualifies (a.table a.closedT) k = false) :
    cursorMoved i a = { a with cursor := some j } := by
  obtain ⟨more, h⟩ := qualifyingFrom_head (Nat.succ_le_of_lt hij) hj hq hn
  rw [cursorMoved, h]

theorem cursorMoved_last {a : Accounts} {i : Nat}
    (hn : ∀ k, i < k → k ≤ 48 → qualifies (a.table a.closedT) k = false) :
    cursorMoved i a = { a.setTable a.closedT Entry.blankTable with reporting := false, cursor := none } := by
  rw [cursorMoved, qualifyingFrom_nil hn]

/-- Settles O20: the layouts, `offerStatus` by what is queued and sent, and the two admissions. -/
theorem offeredFramesEnterTheQueue : Obligations.OfferedFramesEnterTheQueue := by
  refine ⟨fun _ => rfl, rfl, closingPayload_eq, qualifies_iff, ?held,
    fun p l before after f hq hb hf hs => offerStatus_replaces p hq hb hf hs,
    fun p l hn => offerStatus_appends p hn, ?event, ?closing⟩
  case held =>
    intro p l f rest hq hf hs
    rw [offerStatus_held p hq hf hs]
    cases l.hold <;> rfl
  case event =>
    refine fun e rest s ha hq => ⟨fun h6 hm => congrArg Host.Outcome.next ?_,
      fun h => congrArg Host.Outcome.next (admitEvent_waits ha h)⟩
    rw [admitEvent_admits ha hq h6 hm, dropOldest_cons hq]
    rfl
  case closing =>
    refine fun i s ha hc => ⟨fun h6 hm => ?_,
      fun h => congrArg Host.Outcome.next (admitClosing_waits ha h)⟩
    have hadmit := admitClosing_admits ha hc h6 hm
    exact ⟨_, congrArg Host.Outcome.next hadmit, rfl,
      fun j hij hj hq hn => cursorMoved_next hij hj hq hn, fun hn => cursorMoved_last hn,
      hadmit ▸ admitClosing_keeps s⟩

/-! ### The STATUS flags (R39, R58) -/

/-- The flags, bit 15 first. -/
def flagBits (s : State) : List Bool :=
  [decide (s.startup.station = .listening), decide (s.direction.state = .tripped), s.dryer.offSpec,
   s.events.lost, s.link.overrun, decide (s.accounts.sync = .ownClock),
   decide (s.accounts.sync = .unsynced), decide (s.compressor.u1.state = .running),
   decide (s.compressor.u2.state = .running), anyLockout s.compressor, s.dryer.limit,
   anyFailed s.scanner, s.accounts.cursor.isSome, rateCapped s.meter, false, false]

theorem bitValue_eq_mul (b : Bool) (v : Nat) : bitValue b v = v * bitValue b 1 := by
  cases b <;> simp [bitValue]

/-- The weights of the flags are those of bits read one after another. -/
theorem statusFlags_eq (s : State) : statusFlags s = BitVec.ofNat 16 (bitsNat (flagBits s)) := by
  have unused : bitValue false 1 = 0 := rfl
  unfold statusFlags
  congr 1
  simp only [flagBits, bitsNat, List.foldl, unused, bitValue_eq_mul _ 32768, bitValue_eq_mul _ 16384,
    bitValue_eq_mul _ 8192, bitValue_eq_mul _ 4096, bitValue_eq_mul _ 2048, bitValue_eq_mul _ 1024,
    bitValue_eq_mul _ 512, bitValue_eq_mul _ 256, bitValue_eq_mul _ 128, bitValue_eq_mul _ 64,
    bitValue_eq_mul _ 32, bitValue_eq_mul _ 16, bitValue_eq_mul _ 8, bitValue_eq_mul _ 4]
  omega

/-- Flag `15 - k` is entry `k` of the list. -/
theorem statusFlags_getLsbD (s : State) {k : Nat} (hk : k < 16) :
    (statusFlags s).getLsbD (15 - k) = (flagBits s).getD k false := by
  have hbit : (bitsNat (flagBits s)).testBit (15 - k) = (flagBits s).getD k false :=
    bitsNat_testBit (flagBits s) k hk
  have hlt : 15 - k < 16 := by omega
  rw [statusFlags_eq, BitVec.getLsbD_ofNat, hbit, decide_eq_true hlt, Bool.true_and]

theorem anyFailed_iff (s : State) : anyFailed s.scanner = true ↔ ∃ q, (s.qty q).state = .failed := by
  simp only [anyFailed, List.any_eq_true, decide_eq_true_eq]
  exact ⟨fun ⟨q, _, h⟩ => ⟨q, h⟩, fun ⟨q, h⟩ => ⟨q, by cases q <;> decide, h⟩⟩

/-! ### The site target and the digest (R185, R186) -/

theorem digestPart_eq (r : AccRec) (e : Entry) : digestPart r e =
    match e.nomination with
    | some n => crc16 ([BitVec.ofNat 8 (r.code / 256), BitVec.ofNat 8 r.code] ++ putS 3 n)
    | none => 0 := by
  unfold digestPart
  cases e.nomination with
  | none => rfl
  | some n => simp [digestBytes, bytesOf]

/-- Settles O36: the layout, `offerStatus_overrun`, the flags one by one, the target and the digest. -/
theorem announcedFieldsReportTheirOwners : Obligations.AnnouncedFieldsReportTheirOwners := by
  refine ⟨statusPayload_eq, offerStatus_overrun, fun s => ?flags, fun a => ⟨fun h => if_pos h,
    fun h => if_neg h, ?digest⟩⟩
  case flags =>
    have flag {k : Nat} (hk : k < 16) := statusFlags_getLsbD s hk
    refine ⟨flag (k := 0) (by decide), flag (k := 1) (by decide), flag (k := 2) (by decide),
      flag (k := 3) (by decide), flag (k := 4) (by decide), flag (k := 5) (by decide),
      flag (k := 6) (by decide), flag (k := 7) (by decide), flag (k := 8) (by decide), ?_,
      flag (k := 10) (by decide), ?_, flag (k := 12) (by decide), flag (k := 13) (by decide),
      flag (k := 14) (by decide), flag (k := 15) (by decide)⟩
    · exact (flag (k := 9) (by decide)).trans (Bool.decide_or _ _).symm
    · rw [show (statusFlags s).getLsbD 4 = anyFailed s.scanner from flag (k := 11) (by decide)]
      exact anyFailed_iff s
  case digest =>
    rw [digest, ← List.map_uncurry_zip_eq_zipWith]
    congr 2
    funext ⟨r, e⟩
    exact digestPart_eq r e

end Sys2Proof.Machine
end

section
/-! The Peer Roster and the station's own STATUS: taking a STATUS with and without the duplicate mark
(R45 to R51, R209), a silence timer's expiry (R49), and the share cycle with the STATUS it offers
(R55 to R57, R118, R125, R139 to R141). -/

namespace Sys2Proof.Machine

/-! ### Taking a STATUS (R45) -/

section TakeStatus

variable {f : RxFrame} {fields : StatusFields} {rest : List RxFrame} {s : State}

theorem takeStatus_duplicate (ha : s.active = true)
    (hf : takeFrame .peerRoster s.link.buffers = some (f, rest)) (hb : f.body = .status fields)
    (hd : f.dup = true) :
    takeStatus s = takeDuplicate (s.withLink { s.link with buffers := rest }) :=
  takeBy_some _ s _ f rest takeDuplicate ha hf (by simp [hb, hd])

theorem takeStatus_peer (ha : s.active = true)
    (hf : takeFrame .peerRoster s.link.buffers = some (f, rest)) (hb : f.body = .status fields)
    (hd : f.dup = false) :
    takeStatus s = takePeerStatus f.sender fields (s.withLink { s.link with buffers := rest }) :=
  takeBy_some _ s _ f rest (takePeerStatus f.sender fields) ha hf (by simp [hb, hd])

end TakeStatus

/-! ### The duplicate mark (R51, R209) -/

theorem takeDuplicate_listening {s : State} (h : s.startup.station = .listening) :
    takeDuplicate s = enterDuplicate s := if_pos h

theorem takeDuplicate_running {s : State} (h : s.startup.station = .running) :
    takeDuplicate s = post .dupAddress s.cfg.ownAddress s := if_neg (by simp [h])

theorem enterDuplicate_recs (s : State) (i : Nat) :
    (enterDuplicate s).lines.recs[i]? = (s.lines.recs[i]?).map stopLine := List.getElem?_map

theorem enterDuplicate_quantities (s : State) (q : Qty) :
    getQty (enterDuplicate s).scanner.quantities q = fallbackRec (getQty s.cfg.slots q) :=
  getQty_fallbackRecs s.cfg q

/-- Settles O10: `takeStatus_duplicate`, then `enterDuplicate` block by block in LISTENING and the event
in RUNNING. -/
theorem duplicateStatusByStationState : Obligations.DuplicateStatusByStationState := by
  refine fun f fields rest s hf hb hd => ⟨fun hl => ?listening, fun hr => ?running⟩
  case listening =>
    have htake := (takeStatus_duplicate ((active_iff s).2 (.inl hl)) hf hb hd).trans
      (takeDuplicate_listening hl)
    exact ⟨_, congrArg Host.Outcome.next htake, rfl, enterDuplicate_recs _, rfl, rfl, rfl, rfl,
      enterDuplicate_quantities _, rfl, rfl, rfl, rfl, rfl, rfl, rfl, rfl, rfl, rfl, rfl⟩
  case running =>
    have htake := (takeStatus_duplicate ((active_iff s).2 (.inr hr)) hf hb hd).trans
      (takeDuplicate_running hr)
    exact congrArg Host.Outcome.next htake

/-! ### Filing and judging (R46, R47, R48) -/

/-- The disagreement mark stands for the stay in FRESH in which it was set (R46, R48). -/
theorem fileStatus_eq (cycleMs : Nat) (f : StatusFields) (r : PeerRec) : fileStatus cycleMs f r =
    { state := .fresh
      last := f
      silence := .running (3 * cycleMs)
      disagree := decide (r.state = .fresh) && r.disagree } := by
  unfold fileStatus
  cases r.state <;> rfl

/-- An ABSENT peer is new, and its signature is compared with the own one (R47). -/
theorem arrivalEvents_absent (address : Nat) (ownSig : Word16) (f : StatusFields) :
    arrivalEvents address ownSig f .absent = (.peerNew, address) ::
      (if f.signature = ownSig then [] else [(.configMismatch, address)]) := by
  by_cases h : f.signature = ownSig <;> simp [arrivalEvents, h]

/-! ### Silence (R49) -/

section Silence

variable {n : Nat} {s : State}

theorem silenceExpiry_running (ha : s.active = true) (ht : (peerRec s.roster n).silence ≠ .stopped) :
    silenceExpiry n s = postAll (silenceEvents n (peerRec s.roster n).state)
      (s.withRoster (setPeer s.roster n
        (silenceStep (shareCycleMs s.cfg) (peerRec s.roster n)))) := by
  rw [silenceExpiry, whenActive_on s _ ha]
  exact if_pos (isRunning_of_ne ht)

theorem silenceExpiry_fresh (ha : s.active = true) (ht : (peerRec s.roster n).silence ≠ .stopped)
    (hs : (peerRec s.roster n).state = .fresh) :
    silenceExpiry n s = post .peerStale n (s.withRoster (setPeer s.roster n
      { peerRec s.roster n with
        state := .stale, silence := .running (5 * shareCycleMs s.cfg) })) := by
  rw [silenceExpiry_running ha ht, silenceStep, hs]
  rfl

theorem silenceExpiry_stale (ha : s.active = true) (ht : (peerRec s.roster n).silence ≠ .stopped)
    (hs : (peerRec s.roster n).state = .stale) :
    silenceExpiry n s = post .peerLost n (s.withRoster (setPeer s.roster n PeerRec.reset)) := by
  rw [silenceExpiry_running ha ht, silenceStep, hs]
  rfl

end Silence

theorem execSilenceTimerExpiry_inside {n : Nat} (s : State) (h1 : 1 ≤ n) (h2 : n ≤ 32) :
    execSilenceTimerExpiry n s = .next (silenceExpiry n s) := if_pos ⟨h1, h2⟩

/-- Settles O22: `takeStatus_peer` with the record filed by `fileStatus_eq` and the arrival's events by
the state before it, and the two steps toward ABSENT. -/
theorem peersAreFiledJudgedAndAged : Obligations.PeersAreFiledJudgedAndAged := by
  refine ⟨fun f fields rest s ha hf hb hd => ?arrival,
    fun n s ha h1 h2 ht => ⟨fun hs => ?fresh, fun hs => ?stale⟩⟩
  case arrival =>
    intro old mark clash
    have htake := takeStatus_peer ha hf hb hd
    rw [takePeerStatus, fileStatus_eq] at htake
    refine congrArg Host.Outcome.next
      (htake.trans (congrArg (fun events => postAll (events ++ _) _) ?_))
    show arrivalEvents f.sender s.startup.signature fields old.state = _
    cases old.state with
    | fresh => rfl
    | stale => rfl
    | absent => exact arrivalEvents_absent _ _ _
  case fresh =>
    exact (execSilenceTimerExpiry_inside s h1 h2).trans
      (congrArg Host.Outcome.next (silenceExpiry_fresh ha ht hs))
  case stale =>
    exact (execSilenceTimerExpiry_inside s h1 h2).trans
      (congrArg Host.Outcome.next (silenceExpiry_stale ha ht hs))

/-! ### The share cycle (R55 to R57, R118, R125, R139 to R141) -/

/-- The train's judgement comes between the outputs and the STATUS: of the fields it can alter the flags
alone (R57, R58; log 19). -/
theorem assembleStatus_judgeDuty (s : State) :
    assembleStatus (judgeDuty s) = { assembleStatus s with flags := statusFlags (judgeDuty s) } := by
  have keeps := judgeDuty_keeps s
  have hstartup : (judgeDuty s).startup = s.startup := keeps .startup (by decide)
  have hmeter : (judgeDuty s).meter = s.meter := keeps .meter (by decide)
  have hshare : (judgeDuty s).share = s.share := keeps .share (by decide)
  have hdirection : (judgeDuty s).direction = s.direction := keeps .direction (by decide)
  have haccounts : (judgeDuty s).accounts = s.accounts := keeps .accounts (by decide)
  simp only [assembleStatus, hstartup, hmeter, hshare, hdirection, haccounts]

theorem judgeDuty_link (s : State) : (judgeDuty s).link = s.link :=
  judgeDuty_keeps s .link (by decide)

/-- The STATUS of the judged state, put in the link's queue as it stands before the judgement (R55). -/
theorem sendStatus_judgeDuty (s : State) : sendStatus (judgeDuty s) =
    (judgeDuty s).withLink (offerStatus
      (statusPayload { assembleStatus s with flags := statusFlags (judgeDuty s) }) s.link) := by
  rw [sendStatus, assembleStatus_judgeDuty, judgeDuty_link]

theorem shareCycle_running {s : State} (ha : s.active = true) (ht : s.share.timer ≠ .stopped) :
    shareCycle s = runShare s := by
  rw [shareCycle, whenActive_on s _ ha]
  exact if_pos (isRunning_of_ne ht)

/-- Settles O35: the cycle runs (`shareCycle_running`), and the STATUS assembled after the judgement
carries what was stored before it (`sendStatus_judgeDuty`). -/
theorem shareCycleStoresDeliversAndAnnounces :
    Obligations.ShareCycleStoresDeliversAndAnnounces := by
  intro s ha ht o stored judged announced
  have hsent : runShare s = judged.withLink (offerStatus (statusPayload announced) s.link) :=
    sendStatus_judgeDuty stored
  exact congrArg Host.Outcome.next ((shareCycle_running ha ht).trans hsent)

end Sys2Proof.Machine
end

section
/-! The Meter Unit: what METER_INTERVAL collects, forms and offers (R65 to R73) after what it takes first
(R68, R187; log 25, log 33), and the pressure history with its two rate caps (R74, R75). -/

namespace Sys2Proof.Machine

/-! ### Collecting the COUNT lines (R10) -/

theorem collect_of_line {img : Image} {role : Role} {n : Nat} (f : FieldLines)
    (h : lineOf? img role = some n) : collect img role f =
      (((f.lineRec n).count, (f.lineRec n).overRange),
        f.setRec n { f.lineRec n with count := 0, overRange := false }) := by
  rw [collect, h]

theorem lineRec_setRec_ne {m n : Nat} (f : FieldLines) (r : LineRec) (hm : 1 ≤ m) (hn : 1 ≤ n)
    (h : m ≠ n) : (f.setRec m r).lineRec n = f.lineRec n := by
  have hne : m - 1 ≠ n - 1 := by omega
  simp [FieldLines.lineRec, FieldLines.setRec, List.getD_eq_getElem?_getD, List.getElem?_set_ne hne]

section CountLines

variable {s : State} {lineM lineF : Nat} (hm : lineOf? s.cfg .meterPulse = some lineM)
  (hf : lineOf? s.cfg .fuelPulse = some lineF) (hne : lineM ≠ lineF) (h1m : 1 ≤ lineM)
  (h1f : 1 ≤ lineF)

include hm hf hne h1m h1f

/-- Collecting the meter line leaves the fuel line's pair as it stands. -/
theorem intervalInputs_of_lines : intervalInputs s =
    { n := (s.lines.lineRec lineM).count
      meterOver := (s.lines.lineRec lineM).overRange
      fuelCount := (s.lines.lineRec lineF).count
      fuelOver := (s.lines.lineRec lineF).overRange
      p := (s.qty .wellP).value.toNat
      t := (s.qty .wellT).value.toNat
      zc := curveAt s.cfg.curves.zc (s.qty .wellP).value
      directed := directedFlow s.direction.state s.direction.remembered } := by
  simp only [intervalInputs, collect_of_line _ hm, collect_of_line _ hf,
    lineRec_setRec_ne _ _ h1m h1f hne]

theorem collectedLines_of_lines : collectedLines s =
    (s.lines.setRec lineM { s.lines.lineRec lineM with count := 0, overRange := false }).setRec lineF
      { s.lines.lineRec lineF with count := 0, overRange := false } := by
  simp only [collectedLines, collect_of_line _ hm, collect_of_line _ hf,
    lineRec_setRec_ne _ _ h1m h1f hne]

end CountLines

/-! ### The increments (R67, R68, R71, R73) -/

theorem signed_eq (f : Flow) (litres : Nat) :
    signed f litres = if f = .inj then (litres : Int) else -(litres : Int) := by
  cases f <;> rfl

theorem unexpectedFlow_eq (i : IntervalIn) :
    unexpectedFlow i = decide (i.directed = none ∧ 0 < i.n) := (Bool.decide_and _ _).symm

/-- With the Account Store's lists empty each offer is the only one there. -/
theorem offerIncrements_of_empty {s : State} (v : Int) (f : Nat) (hm : s.accounts.metered = [])
    (hf : s.accounts.fuel = []) : offerIncrements v f s = { s with
      accounts := { s.accounts with
        metered := if v = 0 then [] else [v]
        fuel := if f = 0 then [] else [f] }
      inbox := if v < 0 then { s.inbox with
        dryerIncrements := s.inbox.dryerIncrements ++ [v] } else s.inbox } := by
  have hinbox : (if v < 0 then { s.inbox with dryerIncrements := s.inbox.dryerIncrements ++ [v] }
      else s.inbox) = { s.inbox with
        dryerIncrements := s.inbox.dryerIncrements ++ (if v < 0 then [v] else []) } := by
    split
    · rfl
    · rw [List.append_nil]
  rw [hinbox, offerIncrements, hm, hf, List.nil_append, List.nil_append]
  rfl

theorem formIncrements_of_empty {s : State} (hm : s.accounts.metered = [])
    (hf : s.accounts.fuel = []) : formIncrements s =
      (let i := intervalInputs s
      let v := intervalV s.cfg.station i s.meter
      let f := intervalF s.cfg.station i
      postAll (intervalEvents i s.meter) { s with
        lines := collectedLines s
        meter := intervalMeter s.cfg.station i s.meter
        accounts := { s.accounts with
          metered := if v = 0 then [] else [v]
          fuel := if f = 0 then [] else [f] }
        inbox := if v < 0 then { s.inbox with
          dryerIncrements := s.inbox.dryerIncrements ++ [v] } else s.inbox }) :=
  congrArg (postAll _)
    (offerIncrements_of_empty (s := (s.withLines _).withMeter _) _ _ hm hf)

/-- From empty lists an interval offers the Account Store at most one increment of each kind (R187). -/
theorem formIncrements_waits {s : State} (hm : s.accounts.metered = [])
    (hf : s.accounts.fuel = []) : (formIncrements s).inbox.meterEntries = s.inbox.meterEntries ∧
      (formIncrements s).accounts.metered.length ≤ 1 ∧
      (formIncrements s).accounts.fuel.length ≤ 1 := by
  have one_or_none {α : Type} (p : Prop) [Decidable p] (x : α) :
      (if p then [] else [x]).length ≤ 1 := by
    split <;> simp
  simp only [formIncrements_of_empty hm hf, postAll_inbox, postAll_accounts]
  exact ⟨by split <;> rfl, one_or_none _ _, one_or_none _ _⟩

/-! ### What an interval takes first (R68, R187; log 25, log 33) -/

theorem interval_running {s : State} (ha : s.active = true) (ht : s.meter.interval ≠ .stopped) :
    interval s = formIncrements (settle s) := by
  rw [interval, whenActive_on s _ ha]
  exact if_pos (isRunning_of_ne ht)

/-- Two states that agree once what waits is taken form the same increments. -/
theorem interval_congr {s t : State} (ha : s.active = true) (ht : s.meter.interval ≠ .stopped)
    (hactive : t.active = s.active) (hmeter : t.meter.interval = s.meter.interval)
    (hsettle : settle t = settle s) : interval s = interval t := by
  rw [interval_running ha ht, interval_running (hactive.trans ha) (hmeter ▸ ht), hsettle]

theorem takeEntries_of_waiting {s : State} (h : s.inbox.meterEntries ≠ []) :
    takeEntries s = { s with
      inbox := { s.inbox with meterEntries := [] }
      meter := { s.meter with unexpected := false } } := by
  unfold takeEntries
  split
  · contradiction
  · rfl

theorem takeEntries_withAccounts (s : State) (a : Accounts) :
    takeEntries (s.withAccounts a) = (takeEntries s).withAccounts a := by
  simp only [takeEntries, State.withAccounts_inbox]
  split <;> rfl

theorem takeEntries_keeps (s : State) : KeepsAllBut [.meter, .inbox] s (takeEntries s) := by
  unfold takeEntries
  split
  · exact .refl _ _
  · exact ((withInbox_keeps s _).mono (by decide)).then ((withMeter_keeps _ _).mono (by decide))

@[simp] theorem takeEntries_accounts (s : State) : (takeEntries s).accounts = s.accounts :=
  takeEntries_keeps s .accounts (by decide)

@[simp] theorem takeEntries_dryer (s : State) : (takeEntries s).dryer = s.dryer :=
  takeEntries_keeps s .dryer (by decide)

@[simp] theorem takeEntries_active (s : State) : (takeEntries s).active = s.active :=
  (takeEntries_keeps s).active (by decide)

/-- The entries and the oldest metered increment may be taken in either order. -/
theorem takeEntries_takeMetered (s : State) :
    takeEntries (takeMetered s) = takeMetered (takeEntries s) := by
  unfold takeMetered whenActive
  rw [takeEntries_active]
  split
  · simp only [takeEntries_accounts, takeEntries_dryer]
    split
    · rfl
    · exact takeEntries_withAccounts s _
  · rfl

/-- The entries and the oldest fuel increment may be taken in either order. -/
theorem takeEntries_takeFuel (s : State) :
    takeEntries (takeFuel s) = takeFuel (takeEntries s) := by
  unfold takeFuel whenActive
  rw [takeEntries_active]
  split
  · simp only [takeEntries_accounts]
    split
    · rfl
    · exact takeEntries_withAccounts s _
  · rfl

theorem takeFuel_metered (s : State) : (takeFuel s).accounts.metered = s.accounts.metered := by
  unfold takeFuel
  apply whenActive_keeps (fun t => t.accounts.metered = s.accounts.metered) s _ rfl
  intro _
  split
  · rfl
  · exact charged_metered _ _

theorem settle_takeMetered (s : State) : settle (takeMetered s) = settle s := by
  rw [settle, takeEntries_takeMetered, settleMetered_takeMetered, settle]

/-- Metered increments are taken before fuel, so with none waiting a fuel take beforehand changes nothing. -/
theorem settle_takeFuel {s : State} (h : s.accounts.metered = []) :
    settle (takeFuel s) = settle s := by
  have noneBefore : (takeEntries s).accounts.metered = [] := (takeEntries_accounts s).symm ▸ h
  have noneAfter : (takeFuel (takeEntries s)).accounts.metered = [] :=
    (takeFuel_metered _).trans noneBefore
  rw [settle, takeEntries_takeFuel, settleMetered_nothing noneAfter, settleFuel_takeFuel, settle,
    settleMetered_nothing noneBefore]

/-- What the entries leave is a state in which none waits. -/
theorem settle_takeEntries (s : State) : settle (takeEntries s) = settle s := by
  have noEntries : (takeEntries s).inbox.meterEntries = [] := (settle_waits s).1
  rw [settle, takeEntries_nothing noEntries, settle]

theorem interval_of_accounts_kept {s t : State} (ha : s.active = true)
    (ht : s.meter.interval ≠ .stopped) (keeps : KeepsAllBut [.accounts] s t)
    (hsettle : settle t = settle s) : interval s = interval t :=
  interval_congr ha ht (keeps.active (by decide))
    (congrArg Meter.interval (keeps .meter (by decide))) hsettle

/-- Settles O23: with nothing waiting `formIncrements` acts on the state itself, and what waits makes the
same `settle` before and after its take. -/
theorem meterIntervalFormsTheIncrements : Obligations.MeterIntervalFormsTheIncrements := by
  refine ⟨fun lineM lineF s ha ht he hmetered hfuel hm hf hne h1m h1f => ?forms,
    fun s ha ht he => congrArg Host.Outcome.next ?entries,
    fun s t ha ht hx => congrArg Host.Outcome.next ?metered,
    fun s t ha ht hnone hx => congrArg Host.Outcome.next ?fuel, fun s ha ht => ?waits⟩
  case forms =>
    intro rm rf p t zc qm toward sign v fuel surprise
    refine congrArg Host.Outcome.next ?_
    rw [interval_running ha ht, settle_nothing he hmetered hfuel,
      formIncrements_of_empty hmetered hfuel, intervalInputs_of_lines hm hf hne h1m h1f,
      collectedLines_of_lines hm hf hne h1m h1f]
    simp only [intervalEvents, intervalMeter, intervalV, signed_eq, unexpectedFlow_eq]
    rfl
  case entries =>
    rw [← takeEntries_of_waiting he]
    exact interval_congr ha ht (takeEntries_active s)
      (by rw [takeEntries_of_waiting he]) (settle_takeEntries s)
  case metered =>
    cases hx
    exact interval_of_accounts_kept ha ht (takeMetered_keeps s) (settle_takeMetered s)
  case fuel =>
    cases hx
    exact interval_of_accounts_kept ha ht (takeFuel_keeps s) (settle_takeFuel hnone)
  case waits =>
    obtain ⟨he, hm, hf⟩ := settle_waits s
    obtain ⟨hentries, hlists⟩ := formIncrements_waits hm hf
    exact ⟨_, congrArg Host.Outcome.next (interval_running ha ht), hentries.trans he, hlists⟩

/-! ### The pressure history (R74, R75) -/

theorem historyExpiry_unusable {s : State} (h : s.usable .wellP = none) : historyExpiry s = s := by
  apply whenActive_keeps (fun t => t = s) s _ rfl
  intro _
  simp only [h, ite_self]

theorem historyExpiry_usable {s : State} {v : Int} (ha : s.active = true)
    (ht : s.meter.history ≠ .stopped) (h : s.usable .wellP = some v) :
    historyExpiry s = postAll (capEvents s.meter (takeSample s.cfg.station v s.meter))
      (s.withMeter (takeSample s.cfg.station v s.meter)) := by
  rw [historyExpiry, whenActive_on s _ ha, if_pos (isRunning_of_ne ht), h]

/-- A ring that the sample leaves below 16 judges no cap. -/
theorem takeSample_short (cfg : StationCfg) (v : Int) {m : Meter} (h : m.ring.length < 15) :
    takeSample cfg v m = { m with ring := m.ring ++ [v] } := by
  have hpush : pushSample m.ring v = m.ring ++ [v] := if_neg (by simp only [Config.ringPlaces]; omega)
  rw [takeSample, hpush]
  exact if_neg (by simp only [Config.ringPlaces, List.length_append, List.length_singleton]; omega)

/-- From 15 samples the ring becomes full, and from 16 it drops its oldest. -/
theorem pushSample_full {ring kept : List Int} {oldest : Int} (v : Int) (hk : kept.length = 14)
    (h : (∃ gone, ring = gone :: oldest :: kept) ∨ ring = oldest :: kept) :
    pushSample ring v = oldest :: (kept ++ [v]) := by
  obtain ⟨gone, rfl⟩ | rfl := h
  · exact if_pos (by simp [Config.ringPlaces, hk])
  · exact if_neg (by simp [Config.ringPlaces, hk])

theorem ringRise_full (oldest v : Int) (kept : List Int) :
    ringRise (oldest :: (kept ++ [v])) = v - oldest := by
  rw [ringRise, ← List.cons_append, List.getLastD_concat]
  rfl

theorem takeSample_full (cfg : StationCfg) {v oldest : Int} {kept : List Int} {m : Meter}
    (hpush : pushSample m.ring v = oldest :: (kept ++ [v])) (hk : kept.length = 14) :
    takeSample cfg v m = { m with
      ring := oldest :: (kept ++ [v])
      injCap := decide ((cfg.riseLimit : Int) < v - oldest)
      wdCap := decide ((cfg.fallLimit : Int) < oldest - v) } := by
  have hfull : (oldest :: (kept ++ [v])).length = Config.ringPlaces := by simp [Config.ringPlaces, hk]
  rw [takeSample, hpush]
  refine (if_pos hfull).trans ?_
  rw [ringRise_full, neg_sub]

theorem capEvents_eq (before after : Meter) : capEvents before after =
    (if after.injCap = true ∧ before.injCap = false then [(.pressureRate, 1)] else []) ++
      (if after.wdCap = true ∧ before.wdCap = false then [(.pressureRate, 2)] else []) := by
  simp only [capEvents, and_comm]

/-- Caps that stand as they were post nothing. -/
theorem capEvents_same {before after : Meter} (hinj : after.injCap = before.injCap)
    (hwd : after.wdCap = before.wdCap) : capEvents before after = [] := by
  have never (b : Bool) : ¬(b = false ∧ b = true) := by cases b <;> decide
  rw [capEvents, hinj, hwd, if_neg (never _), if_neg (never _), List.append_nil]

theorem clearUnexpected_waiting {s : State} {st : DirState} {rest : List DirState}
    (ha : s.active = true) (h : s.inbox.meterEntries = st :: rest) :
    clearUnexpected s = { s with
      inbox := { s.inbox with meterEntries := rest }
      meter := { s.meter with unexpected := false } } := by
  rw [clearUnexpected, whenActive_on s _ ha, h]
  rfl

/-- Settles O24: the sample by the ring's length before it (`takeSample_short`, `takeSample_full`), then
the events of the caps that come into force. -/
theorem historyJudgesBothCaps : Obligations.HistoryJudgesBothCaps := by
  refine ⟨fun s _ _ h => congrArg Host.Outcome.next (historyExpiry_unusable h),
    fun v s ha ht h hlen => congrArg Host.Outcome.next ?short,
    fun v oldest kept s ha ht h hk hring => ?full,
    fun st rest s ha h => congrArg Host.Outcome.next (clearUnexpected_waiting ha h)⟩
  case short =>
    refine (historyExpiry_usable ha ht h).trans ?_
    rw [takeSample_short _ _ hlen]
    exact congrArg (postAll · _) (capEvents_same rfl rfl)
  case full =>
    intro inj wd
    refine congrArg Host.Outcome.next ((historyExpiry_usable ha ht h).trans ?_)
    rw [takeSample_full _ (pushSample_full v hk hring) hk, capEvents_eq]
    rfl

end Sys2Proof.Machine
end

section
/-! The curves (R62), the usable quantities (R19), and what is available: the unit capacity and its multiples
(R92, R93), the cavern limits (R76, R77) and D_avail (R117). -/

namespace Sys2Proof.Machine

/-! ### Curves (R62) -/

/-- Every point that the input has reached is passed over. -/
theorem curveFrom_skips {x : Int} {xk yk : Nat} {after : List (Nat × Nat)} (hk : (xk : Int) ≤ x) :
    ∀ (before : List (Nat × Nat)) (x0 y0 : Nat), (∀ p ∈ before, (p.1 : Int) ≤ x) →
      curveFrom x x0 y0 (before ++ (xk, yk) :: after) = curveFrom x xk yk after
  | [], _, _, _ => if_neg (by omega)
  | (x1, y1) :: before, _, _, hb =>
    have h1 : (x1 : Int) ≤ x := hb (x1, y1) List.mem_cons_self
    (if_neg (by omega)).trans
      (curveFrom_skips hk before x1 y1 fun p hp => hb p (List.mem_cons_of_mem _ hp))

/-- At a point's own input the segment that begins there gives the point's output. -/
theorem curveFrom_self {x0 y0 : Nat} {after : List (Nat × Nat)} (h : ∀ p ∈ after, x0 < p.1) :
    curveFrom (x0 : Int) x0 y0 after = y0 := by
  cases after with
  | nil => rfl
  | cons p after =>
    have hp : x0 < p.1 := h p List.mem_cons_self
    simp [curveFrom, hp]

theorem curveAt_first {c : Curve} {x0 y0 : Nat} {rest : List (Nat × Nat)} {x : Int}
    (hc : c.points = (x0, y0) :: rest) (hx : x ≤ (x0 : Int)) : curveAt c x = y0 := by
  rw [curveAt, hc]
  exact if_pos hx

/-- On an ascending curve the output is read from any point that the input has reached. -/
theorem curveAt_from {c : Curve} {before after : List (Nat × Nat)} {xk yk : Nat} {x : Int}
    (hc : c.points = before ++ (xk, yk) :: after)
    (hasc : c.points.Pairwise (fun a b => a.1 < b.1)) (hx : (xk : Int) ≤ x) :
    curveAt c x = curveFrom x xk yk after := by
  rw [hc] at hasc
  obtain ⟨-, htail, hbefore⟩ := List.pairwise_append.1 hasc
  cases before with
  | nil =>
    rw [curveAt, hc]
    by_cases heq : x ≤ (xk : Int)
    · obtain rfl : x = xk := le_antisymm heq hx
      exact (if_pos heq).trans (curveFrom_self (List.pairwise_cons.1 htail).1).symm
    · exact if_neg heq
  | cons p before =>
    have reached : ∀ q ∈ p :: before, (q.1 : Int) < x := fun q hq => by
      have hlt : q.1 < xk := hbefore q hq _ List.mem_cons_self
      omega
    have hp : ¬x ≤ (p.1 : Int) := not_le.2 (reached p List.mem_cons_self)
    rw [curveAt, hc]
    exact (if_neg hp).trans
      (curveFrom_skips hx before p.1 p.2 fun q hq => (reached q (List.mem_cons_of_mem _ hq)).le)

/-- Between two points the output is never below 0, so that nothing is lost in forming it. -/
theorem interpolated_nonneg {y0 y1 d w : Int} (h0 : 0 ≤ y0) (h1 : 0 ≤ y1) (hd : 0 ≤ d) (hw : d < w) :
    0 ≤ y0 + ((y1 - y0) * d).tdiv w := by
  have hlow : -y0 * w ≤ (y1 - y0) * d := by nlinarith
  have hdiv : (-y0 * w).tdiv w ≤ ((y1 - y0) * d).tdiv w := Int.tdiv_le_tdiv (by omega) hlow
  rw [Int.mul_tdiv_cancel _ (by omega)] at hdiv
  omega

theorem curveFrom_between {x : Int} {x0 y0 x1 y1 : Nat} {after : List (Nat × Nat)}
    (h0 : (x0 : Int) ≤ x) (h1 : x < (x1 : Int)) :
    (curveFrom x x0 y0 ((x1, y1) :: after) : Int) =
      (y0 : Int) + (((y1 : Int) - y0) * (x - x0)).tdiv ((x1 : Int) - x0) := by
  rw [curveFrom, if_pos h1]
  exact Int.toNat_of_nonneg (interpolated_nonneg (by omega) (by omega) (by omega) (by omega))

/-! ### Usable quantities (R19) -/

theorem usable_of_good_or_held {s : State} {q : Qty}
    (h : (s.qty q).state = .good ∨ (s.qty q).state = .held) : s.usable q = some (s.qty q).value := by
  obtain h | h := h <;> rw [State.usable, h]

theorem usable_of_none_or_failed {s : State} {q : Qty}
    (h : (s.qty q).state = .none ∨ (s.qty q).state = .failed) : s.usable q = none := by
  obtain h | h := h <;> rw [State.usable, h]

/-! ### Capacity (R92, R93) -/

theorem unitCapacity_usable {s : State} {p l : Int} (hp : s.usable .wellP = some p)
    (hl : s.usable .lineP = some l) :
    unitCapacity s = curveAt s.cfg.curves.unit ((p * 64).fdiv l) := by
  rw [unitCapacity, hp, hl]

theorem unitCapacity_unusable {s : State} (h : s.usable .wellP = none ∨ s.usable .lineP = none) :
    unitCapacity s = 0 := by
  obtain h | h := h
  · rw [unitCapacity, h]
  · rw [unitCapacity, h]
    cases s.usable .wellP <;> rfl

theorem cAvail_eq (s : State) : cAvail s = unitCapacity s *
    ((if s.compressor.u1.state = .lockout then 0 else 1) +
      (if s.compressor.u2.state = .lockout then 0 else 1)) := by
  simp only [cAvail, unitsThat, decide_eq_true_eq, ite_not]

theorem cRun_eq (s : State) : cRun s = unitCapacity s *
    ((if s.compressor.u1.state = .running then 1 else 0) +
      (if s.compressor.u2.state = .running then 1 else 0)) := by
  simp only [cRun, unitsThat, decide_eq_true_eq]

/-! ### The cavern limits (R76, R77) -/

/-- A limit under a rate cap, with no cap the bound that it already meets. -/
theorem capped_eq_min (cap : Bool) {limit bound floor : Nat} (h : limit ≤ bound) :
    (if cap then min limit floor else limit) = min limit (if cap = true then floor else bound) := by
  cases cap with
  | false => exact (min_eq_left h).symm
  | true => rfl

theorem cavernLimits_unusable {s : State} (h : s.usable .wellP = none) :
    cavernInj s = 0 ∧ cavernWd s = 0 := by
  rw [cavernInj, cavernWd, h]
  exact ⟨rfl, rfl⟩

theorem cavernInj_usable {s : State} {p : Int} (h : s.usable .wellP = some p) : cavernInj s =
    (if (s.cfg.station.pmax : Int) ≤ p then 0
    else min (min s.cfg.station.winj (curveAt s.cfg.curves.inj p))
      (if s.meter.injCap = true then s.cfg.station.fmin else s.cfg.station.winj)) := by
  rw [cavernInj, h, ← capped_eq_min _ (min_le_left _ _)]

theorem cavernWd_usable {s : State} {p : Int} (h : s.usable .wellP = some p) : cavernWd s =
    (if p ≤ (s.cfg.station.pmin : Int) then 0
    else min (min s.cfg.station.wwd (curveAt s.cfg.curves.wd p))
      (if s.meter.wdCap = true then s.cfg.station.fmin else s.cfg.station.wwd)) := by
  rw [cavernWd, h, ← capped_eq_min _ (min_le_left _ _)]

/-! ### D_avail (R117) -/

/-- The tower found is the one that is ON_LINE, where the other is not (R105). -/
theorem onLineTower_of_onLine {d : Dryer} {x : Tower} (hx : (d.tower x).state = .onLine)
    (hother : (d.tower (otherTower x)).state ≠ .onLine) : onLineTower d = x := by
  cases x with
  | a => exact if_pos hx
  | b => exact if_neg hother

theorem taperApplies_of_onLine (c : DryerCfg) {d : Dryer} {x : Tower} (h : onLineTower d = x) :
    taperApplies c d = decide ((d.tower (otherTower x)).state ≠ .standby ∧
      (3 * c.lmax * 1000 : Nat) ≤ 4 * (d.tower x).load) := by
  rw [taperApplies, offLineRec, onLineRec, h]

/-- A load above Lmax tapers to 0, held at the lower end. -/
theorem dAvail_of_onLine (c : DryerCfg) {d : Dryer} {x : Tower} (h : onLineTower d = x) :
    dAvail c d =
      (let tapered := if taperApplies c d = true then
          (max 0 (((c.dmax : Int) * ((c.lmax * 1000 : Nat) - (d.tower x).load)).tdiv
            (c.lmax * 250 : Nat))).toNat
        else c.dmax
      if d.offSpec = true then min tapered (c.dmax / 2) else tapered) := by
  have held (z : Int) : (max 0 z).toNat = z.toNat := by omega
  rw [dAvail, onLineRec, h]
  simp only [held]

/-- Settles O25: `curveAt_from` for the curves, then each availability by its own lemma. -/
theorem availabilitiesFollowCurvesCapsAndTaper :
    Obligations.AvailabilitiesFollowCurvesCapsAndTaper := by
  refine ⟨fun c x0 y0 rest x => curveAt_first, fun c before xm ym x hc hasc hx => ?last,
    fun c before after x0 y0 x1 y1 x hc hasc h0 h1 => ?between,
    fun s => ⟨fun h => ?unusable, fun hp hl => ?usable, cAvail_eq s, cRun_eq s⟩,
    fun s h => cavernLimits_unusable (usable_of_none_or_failed h),
    fun s h => ⟨cavernInj_usable (usable_of_good_or_held h),
      cavernWd_usable (usable_of_good_or_held h)⟩,
    fun x c d hx hother => ?dryer⟩
  case last => exact curveAt_from hc hasc hx
  case between => rw [curveAt_from hc hasc h0, curveFrom_between h0 h1]
  case unusable =>
    refine unitCapacity_unusable ?_
    obtain h | h | h | h := h
    · exact .inl (usable_of_none_or_failed (.inl h))
    · exact .inl (usable_of_none_or_failed (.inr h))
    · exact .inr (usable_of_none_or_failed (.inl h))
    · exact .inr (usable_of_none_or_failed (.inr h))
  case usable => exact unitCapacity_usable (usable_of_good_or_held hp) (usable_of_good_or_held hl)
  case dryer =>
    intro load taper
    have hon : onLineTower d = x := onLineTower_of_onLine hx hother
    have htaper : taperApplies c d = taper := taperApplies_of_onLine c hon
    exact ⟨htaper, htaper ▸ dAvail_of_onLine c hon⟩

end Sys2Proof.Machine
end

section
/-! Whose drive requests a command sets (R7): `requestsOf` names the requests of a block, and every command
keeps those of the blocks it does not touch. With it `exec_requestsOf` says of the requests what
`exec_keeps` says of the blocks. -/

namespace Sys2Proof.Machine

/-! ### Requests by their owner (R7) -/

/-- The requests of a block's own drive roles (R7). -/
def requestsOf (b : Block) (q : DriveReqs) : List Bool :=
  match b with
  | .dryer => [q.twrA, q.twrB, q.heater]
  | .compressor => [q.u1Run, q.u2Run]
  | .direction => [q.whv, q.injv, q.wdv, q.tripOut]
  | _ => []

/-- From `q` to `r` no request of another block than `b` changes. -/
def KeepsOthers (b : Block) (q r : DriveReqs) : Prop :=
  ∀ x : Block, x ≠ b → requestsOf x r = requestsOf x q

theorem KeepsOthers.refl (b : Block) (q : DriveReqs) : KeepsOthers b q q := fun _ _ => rfl

theorem KeepsOthers.of_eq {b : Block} {q : DriveReqs} {s t : State}
    (h : KeepsOthers b q s.lines.requests) (k : t.lines.requests = s.lines.requests) :
    KeepsOthers b q t.lines.requests := k ▸ h

theorem KeepsOthers.post {b : Block} {q : DriveReqs} {s : State} {k : EventKind} {d : Nat}
    (h : KeepsOthers b q s.lines.requests) : KeepsOthers b q (post k d s).lines.requests :=
  h.of_eq (congrArg FieldLines.requests (post_lines k d s))

theorem KeepsOthers.whenActive {b : Block} {q : DriveReqs} {s : State} {f : State → State}
    (h : KeepsOthers b q s.lines.requests) (hf : KeepsOthers b q (f s).lines.requests) :
    KeepsOthers b q (whenActive s f).lines.requests :=
  whenActive_keeps (fun t => KeepsOthers b q t.lines.requests) s f h fun _ => hf

/-- A line's change taken, and what its owner then does. -/
theorem KeepsOthers.takeLine {b : Block} {q : DriveReqs} {s : State}
    (h : KeepsOthers b q s.lines.requests) (role : Role) (lvl : Bool) {act : State → State}
    (ha : ∀ t, KeepsOthers b q t.lines.requests → KeepsOthers b q (act t).lines.requests) :
    KeepsOthers b q (takeLine role lvl s act).lines.requests :=
  takeLine_keeps (fun t => KeepsOthers b q t.lines.requests) role lvl s act h fun _ _ => ha _ h

/-- A frame taken from the buffers, and what its consumer then does. -/
theorem KeepsOthers.takeBy {b : Block} {q : DriveReqs} {s : State}
    (h : KeepsOthers b q s.lines.requests) (c : Consumer) {act : RxFrame → Option (State → State)}
    (ha : ∀ f g t, act f = some g → KeepsOthers b q t.lines.requests →
      KeepsOthers b q (g t).lines.requests) : KeepsOthers b q (takeBy c s act).lines.requests :=
  takeBy_keeps (fun t => KeepsOthers b q t.lines.requests) c s act h fun f _ g _ hg => ha f g _ hg h

/-! ### What sets no request -/

theorem senseLevelChange_requests (n : Nat) (high : Bool) (s : State) :
    (senseLevelChange n high s).lines.requests = s.lines.requests := by
  unfold senseLevelChange
  split
  · split
    · rfl
    · split <;> rfl
  · rfl

theorem countEdge_requests (n : Nat) (high : Bool) (s : State) :
    (countEdge n high s).lines.requests = s.lines.requests := by
  unfold countEdge
  split
  · split
    · rfl
    · split <;> rfl
  · rfl

theorem deliverChange_lines (role : Role) (lvl : Bool) (s : State) :
    (deliverChange role lvl s).lines = s.lines := deliverChange_keeps role lvl s .lines (by decide)

theorem stabilityExpiry_requests (n : Nat) (s : State) :
    (stabilityExpiry n s).lines.requests = s.lines.requests := by
  refine whenActive_keeps (fun t => t.lines.requests = s.lines.requests) s _ rfl fun _ => ?_
  split
  · rfl
  · dsimp only
    split
    · split
      · rfl
      · rw [deliverChange_lines]
        rfl
    · rfl

theorem applyDuty_requests (s : State) : (applyDuty s).lines.requests = s.lines.requests :=
  whenActive_keeps (fun t => t.lines.requests = s.lines.requests) s _ rfl fun _ => rfl

theorem collect_requests (img : Image) (role : Role) (f : FieldLines) :
    (collect img role f).2.requests = f.requests := by
  unfold collect
  split <;> rfl

theorem formIncrements_requests (s : State) :
    (formIncrements s).lines.requests = s.lines.requests :=
  calc (formIncrements s).lines.requests = (collectedLines s).requests :=
        congrArg FieldLines.requests (postAll_lines _ _)
    _ = s.lines.requests := (collect_requests _ _ _).trans (collect_requests _ _ _)

theorem interval_requests (s : State) : (interval s).lines.requests = s.lines.requests := by
  refine whenActive_keeps (fun t => t.lines.requests = s.lines.requests) s _ rfl fun _ => ?_
  split
  · exact (formIncrements_requests _).trans
      (congrArg FieldLines.requests (settle_keeps s .lines (by decide)))
  · rfl

end Sys2Proof.Machine
end

section
/-! One judgement of the second-unit start and the lag stop (R97 to R99) as three acts in a row: the dwells
and marks, the start that is made, the lag stop that is made. -/

namespace Sys2Proof.Machine

/-- An act on the chosen unit, if there is one. -/
def onChosen (act : UnitId → State → State) (x : Option UnitId) (s : State) : State :=
  match x with
  | some u => act u s
  | none => s

/-- The start condition with its dwell complete (R98). -/
def startDue (s : State) : Bool := startCondition s && s.compressor.startMark

/-- The stop condition with its dwell complete (R99). -/
def stopDue (s : State) : Bool := stopCondition s && s.compressor.stopMark

/-- The unit that a judgement starts, if any (R98). -/
def startMade (s : State) : Option UnitId := if startDue s = true then secondStart s else none

/-- The unit that a judgement stops, if any (R99). -/
def stopMade (s : State) : Option UnitId := if stopDue s = true then lagStop s else none

/-- A dwell timer at a judgement: started where it is neither running nor complete, stopped without its
condition (R98, R99). -/
def dwellAfter (cond : Bool) (dwell : Nat) (t : Timer) (mark : Bool) : Timer :=
  if cond = true then (if t = .stopped ∧ mark = false then .running (dwell * 1000) else t) else .stopped

/-- The dwells as a judgement leaves them, with the marks given. -/
def judgedWith (startMark stopMark : Bool) (s : State) : State :=
  s.withCompressor { s.compressor with
    startDwell := dwellAfter (startCondition s) s.cfg.compressor.startDwell s.compressor.startDwell
      s.compressor.startMark
    startMark := startMark
    stopDwell := dwellAfter (stopCondition s) s.cfg.compressor.stopDwell s.compressor.stopDwell
      s.compressor.stopMark
    stopMark := stopMark }

theorem isRunning_eq_false_iff (t : Timer) : t.isRunning = false ↔ t = .stopped := by
  cases t <;> simp [Timer.isRunning]

theorem judgeDwell_eq (cond : Bool) (dwell : Nat) (t : Timer) (mark : Bool) :
    judgeDwell cond dwell t mark = (dwellAfter cond dwell t mark, cond && mark) := by
  cases cond with
  | false => rfl
  | true => simp [judgeDwell, dwellAfter, isRunning_eq_false_iff, Timer.ofSeconds]

/-- A judgement sets the dwells, then makes the start and the lag stop that are due and can be made; each
clears its mark (R98, R99). -/
theorem judgeOnce_eq (s : State) : judgeOnce s =
    onChosen stopRequest (stopMade s) (onChosen startRequest (startMade s)
      (judgedWith (startDue s && !(startMade s).isSome) (stopDue s && !(stopMade s).isSome) s)) := by
  have both (a b : Bool) (x : Option UnitId) : (if a = true ∧ (a && b) = true then x else none) =
      if (a && b) = true then x else none := by cases a <;> simp
  simp only [judgeOnce, judgeDwell_eq, both]
  rfl

end Sys2Proof.Machine
end

section
/-! The Compressor Duty Unit sets the run command requests alone, and sets them with the unit states
(R82): act by act `UnitsFollow`, with what each act needs of the unit's state before or after it. -/

namespace Sys2Proof.Machine

/-- From `s` to `t` only run command requests change, and in `t` they are still those of the unit states
(R82). -/
def UnitsFollow (s t : State) : Prop :=
  KeepsOthers .compressor s.lines.requests t.lines.requests ∧
  (UnitsSound s.compressor s.lines.requests → UnitsSound t.compressor t.lines.requests)

namespace UnitsFollow

variable {s₀ s t : State}

theorem refl (s : State) : UnitsFollow s s := ⟨.refl _ _, id⟩

/-- Neither a unit's state nor a request changes. -/
theorem of_states (h : UnitsFollow s₀ s) (h1 : t.compressor.u1.state = s.compressor.u1.state)
    (h2 : t.compressor.u2.state = s.compressor.u2.state)
    (hq : t.lines.requests = s.lines.requests) : UnitsFollow s₀ t := by
  refine ⟨h.1.of_eq hq, fun k => ?_⟩
  obtain ⟨k1, k2⟩ := h.2 k
  exact ⟨by rw [hq, h1, k1], by rw [hq, h2, k2]⟩

theorem post {k : EventKind} {d : Nat} (h : UnitsFollow s₀ s) : UnitsFollow s₀ (post k d s) :=
  h.of_states (by rw [post_compressor]) (by rw [post_compressor]) (by rw [post_lines])

theorem whenActive {f : State → State} (h : UnitsFollow s₀ s) (hf : UnitsFollow s₀ (f s)) :
    UnitsFollow s₀ (whenActive s f) :=
  whenActive_keeps (UnitsFollow s₀) s f h fun _ => hf

theorem takeLine (h : UnitsFollow s₀ s) (role : Role) (lvl : Bool) {act : State → State}
    (ha : ∀ t, UnitsFollow s₀ t → UnitsFollow s₀ (act t)) : UnitsFollow s₀ (takeLine role lvl s act) :=
  takeLine_keeps (UnitsFollow s₀) role lvl s act h fun _ _ => ha _ (h.of_states rfl rfl rfl)

/-! ### The unit states (R82 to R89) -/

/-- A unit's record replaced by one that calls for the same request. -/
theorem setUnit {u : UnitId} {r : UnitRec} (h : UnitsFollow s₀ s)
    (hr : onDuty r.state = onDuty (s.unit u).state) : UnitsFollow s₀ (s.setUnit u r) := by
  refine ⟨h.1, fun k => ?_⟩
  obtain ⟨k1, k2⟩ := h.2 k
  cases u with
  | one => exact ⟨k1.trans hr.symm, k2⟩
  | two => exact ⟨k1, k2.trans hr.symm⟩

/-- A unit's record replaced and its run command requested or released with it. -/
theorem command {u : UnitId} {r : UnitRec} {b : Bool} (h : UnitsFollow s₀ s) (hr : onDuty r.state = b) :
    UnitsFollow s₀ (setRunCmd u b (s.setUnit u r)) := by
  constructor
  · intro x hx
    rw [← h.1 x hx]
    cases u <;> cases x <;> first | rfl | exact absurd rfl hx
  · intro k
    obtain ⟨k1, k2⟩ := h.2 k
    cases u with
    | one => exact ⟨hr.symm, k2⟩
    | two => exact ⟨k1, hr.symm⟩

theorem notify {entered : Bool} (h : UnitsFollow s₀ s) : UnitsFollow s₀ (notify entered s) :=
  h.of_states rfl rfl rfl

theorem enterRunning {u : UnitId} (h : UnitsFollow s₀ s) (hs : onDuty (s.unit u).state = true) :
    UnitsFollow s₀ (enterRunning u s) :=
  .notify (.setUnit h hs.symm)

theorem leaveTo {u : UnitId} {dest : UnitState} (h : UnitsFollow s₀ s) (hd : onDuty dest = false) :
    UnitsFollow s₀ (leaveTo u dest s) := by
  simp only [Machine.leaveTo]
  split
  · exact notify (.setUnit (h.command hd) rfl)
  · exact h.command hd

theorem startRequest {u : UnitId} (h : UnitsFollow s₀ s) : UnitsFollow s₀ (startRequest u s) := by
  simp only [Machine.startRequest]
  split
  · exact (h.command rfl).enterRunning (by cases u <;> rfl)
  · exact h.command rfl

theorem stopRequest {u : UnitId} (h : UnitsFollow s₀ s) : UnitsFollow s₀ (stopRequest u s) := by
  unfold Machine.stopRequest
  split
  · exact h.leaveTo rfl
  · exact h.leaveTo rfl
  all_goals exact h

theorem tripUnit {u : UnitId} {cause : Nat} (h : UnitsFollow s₀ s) :
    UnitsFollow s₀ (tripUnit u cause s) := by
  simp only [Machine.tripUnit]
  split
  · exact (h.post.leaveTo rfl).post
  · exact h.post.leaveTo rfl

/-! ### The train (R95 to R100) -/

theorem leadChoice (h : UnitsFollow s₀ s) : UnitsFollow s₀ (leadChoice s) := by
  unfold Machine.leadChoice
  split
  · split
    · exact h.startRequest
    · exact h
  · exact h

theorem onChosen {act : UnitId → State → State} {x : Option UnitId} (h : UnitsFollow s₀ s)
    (ha : ∀ {u : UnitId}, UnitsFollow s₀ s → UnitsFollow s₀ (act u s)) :
    UnitsFollow s₀ (onChosen act x s) := by
  cases x with
  | none => exact h
  | some u => exact ha h

theorem judgeOnce (h : UnitsFollow s₀ s) : UnitsFollow s₀ (judgeOnce s) := by
  rw [judgeOnce_eq]
  exact .onChosen (.onChosen (.of_states h rfl rfl rfl) startRequest) stopRequest

theorem judgeDuty (h : UnitsFollow s₀ s) : UnitsFollow s₀ (judgeDuty s) := by
  simp only [Machine.judgeDuty]
  split
  · split
    · exact h.judgeOnce
    · exact h.judgeOnce.judgeOnce
  · exact h

theorem judgeTrain (h : UnitsFollow s₀ s) : UnitsFollow s₀ (judgeTrain s) := h.leadChoice.judgeDuty

theorem endLineup (h : UnitsFollow s₀ s) : UnitsFollow s₀ (endLineup s) := h.of_states rfl rfl rfl

theorem stopDwells (h : UnitsFollow s₀ s) : UnitsFollow s₀ (stopDwells s) := h.of_states rfl rfl rfl

theorem stopIfStarting {u : UnitId} (h : UnitsFollow s₀ s) : UnitsFollow s₀ (stopIfStarting u s) := by
  unfold Machine.stopIfStarting
  split
  · exact h.stopRequest
  · exact h

theorem trainStop (h : UnitsFollow s₀ s) : UnitsFollow s₀ (trainStop s) :=
  h.endLineup.stopRequest.stopRequest.stopDwells

theorem dropLineup (h : UnitsFollow s₀ s) : UnitsFollow s₀ (dropLineup s) := by
  unfold Machine.dropLineup
  split
  · exact h.endLineup.stopIfStarting.stopIfStarting.stopDwells
  · exact h.stopDwells

theorem takeDirChange {st : DirState} (h : UnitsFollow s₀ s) : UnitsFollow s₀ (takeDirChange st s) := by
  have h' : UnitsFollow s₀ (s.withCompressor { s.compressor with trainDir := st }) :=
    h.of_states rfl rfl rfl
  cases st with
  | idle | tripped => exact h'.trainStop
  | rundown | lineupWd | withdraw => exact h'.dropLineup
  | lineupInj => exact .leadChoice (.of_states h'.endLineup rfl rfl rfl)
  | inject => exact h'.endLineup.judgeDuty

theorem trainDirectionChange (s : State) : UnitsFollow s (trainDirectionChange s) := by
  refine (refl s).whenActive ?_
  split
  · exact refl s
  · exact .takeDirChange (.of_states (refl s) rfl rfl rfl)

/-! ### Timers, feedbacks, faults and clears -/

theorem startTimeout (u : UnitId) (s : State) : UnitsFollow s (startTimeout u s) := by
  refine (refl s).whenActive ?_
  dsimp only
  split
  · split
    · exact .judgeTrain (.leaveTo (.post (.setUnit (refl s) rfl)) rfl)
    · exact .judgeTrain (.post (.leaveTo (.post (.setUnit (refl s) rfl)) rfl))
  · exact refl s

theorem feedbackOn (u : UnitId) (s : State) : UnitsFollow s (feedbackOn u s) := by
  refine (refl s).takeLine _ _ fun t h => ?_
  split
  · next hs => exact (h.enterRunning (congrArg onDuty hs)).judgeTrain
  · exact h

theorem feedbackOff (u : UnitId) (s : State) : UnitsFollow s (feedbackOff u s) := by
  refine (refl s).takeLine _ _ fun t h => ?_
  split
  · exact h.tripUnit.judgeTrain
  · exact h

theorem faultOn (u : UnitId) (s : State) : UnitsFollow s (faultOn u s) := by
  refine (refl s).takeLine _ _ fun t h => ?_
  split
  · exact h.tripUnit.judgeTrain
  · split
    · exact h.judgeTrain
    · exact h

theorem faultOff (u : UnitId) (s : State) : UnitsFollow s (faultOff u s) := by
  refine (refl s).takeLine _ _ fun t h => ?_
  split
  · exact h.judgeTrain
  · exact h

theorem runClock (u : UnitId) (s : State) : UnitsFollow s (runClock u s) := by
  refine (refl s).whenActive ?_
  dsimp only
  split
  · exact (refl s).setUnit rfl
  · exact refl s

theorem minRunExpiry (u : UnitId) (s : State) : UnitsFollow s (minRunExpiry u s) := by
  refine (refl s).whenActive ?_
  dsimp only
  split
  · exact .judgeDuty (.setUnit (refl s) rfl)
  · exact refl s

theorem minStopExpiry (u : UnitId) (s : State) : UnitsFollow s (minStopExpiry u s) := by
  refine (refl s).whenActive ?_
  dsimp only
  split
  · split
    · exact .judgeTrain (.setUnit (refl s) rfl)
    · exact (refl s).setUnit rfl
  · exact refl s

/-- COOLDOWN and OFF call for the same request (R88). -/
theorem cooldownEnd (u : UnitId) (s : State) : UnitsFollow s (cooldownEnd u s) := by
  refine (refl s).whenActive ?_
  dsimp only
  split
  · next hs => exact .judgeTrain (.setUnit (refl s) (congrArg onDuty hs.1).symm)
  · exact refl s

theorem startDwellEnd (s : State) : UnitsFollow s (startDwellEnd s) := by
  refine (refl s).whenActive ?_
  split
  · exact .judgeDuty (.of_states (refl s) rfl rfl rfl)
  · exact refl s

theorem stopDwellEnd (s : State) : UnitsFollow s (stopDwellEnd s) := by
  refine (refl s).whenActive ?_
  split
  · exact .judgeDuty (.of_states (refl s) rfl rfl rfl)
  · exact refl s

/-- LOCKOUT and OFF call for the same request (R90). -/
theorem clearUnitBy {u : UnitId} (h : UnitsFollow s₀ s) : UnitsFollow s₀ (clearUnitBy u s) := by
  unfold Machine.clearUnitBy
  split
  · next hs =>
    split
    · exact h.post
    · exact .judgeTrain (.setUnit h (congrArg onDuty hs).symm)
  · exact h.post

theorem takeClearUnit (s : State) : UnitsFollow s (takeClearUnit s) := by
  refine takeBy_keeps (UnitsFollow s) _ s _ (refl s) fun f rest g _ hg => ?_
  split at hg <;> cases hg
  exact .clearUnitBy (.of_states (refl s) rfl rfl rfl)

/-! ### The share cycle -/

/-- Of a share cycle only the train's judgement reaches a request (R97). -/
theorem shareCycle (s : State) : UnitsFollow s (shareCycle s) := by
  refine (refl s).whenActive ?_
  split
  · have stored : UnitsFollow s (storeShare (shareCompute s.cfg.station (shareInputs s)) s) :=
      (refl s).of_states rfl rfl rfl
    exact stored.judgeDuty.of_states rfl rfl rfl
  · exact refl s

end UnitsFollow

end Sys2Proof.Machine
end

section
/-! The Dryer Unit sets the tower and heater requests alone, from the tower states and the heater's owner
(R105): what each act makes of the towers (`TowersSound`), then act by act `TowersFollow`. -/

namespace Sys2Proof.Machine

/-! ### The towers and the heater's owner (R105, R109) -/

/-- One tower is ON_LINE and the heater's owner is the HEATING tower (R105, R109). -/
def TowersSound (d : Dryer) : Prop :=
  (d.a.state = .onLine ↔ d.b.state ≠ .onLine) ∧
  (d.a.state = .heating ↔ d.heater = some .a) ∧
  (d.b.state = .heating ↔ d.heater = some .b)

/-- The same of either tower and the other one. -/
theorem towersSound_iff (d : Dryer) (t : Tower) : TowersSound d ↔
    ((d.tower t).state = .onLine ↔ (d.tower (otherTower t)).state ≠ .onLine) ∧
    ((d.tower t).state = .heating ↔ d.heater = some t) ∧
    ((d.tower (otherTower t)).state = .heating ↔ d.heater = some (otherTower t)) := by
  cases t with
  | a => exact Iff.rfl
  | b =>
    show _ ↔ (d.b.state = .onLine ↔ d.a.state ≠ .onLine) ∧ (d.b.state = .heating ↔ d.heater = some .b) ∧
      (d.a.state = .heating ↔ d.heater = some .a)
    unfold TowersSound
    tauto

theorem otherTower_ne (t : Tower) : otherTower t ≠ t := by cases t <;> decide

theorem tower_setTower_same (d : Dryer) (t : Tower) (r : TowerRec) : (d.setTower t r).tower t = r := by
  cases t <;> rfl

theorem tower_setTower_other (d : Dryer) (t : Tower) (r : TowerRec) :
    (d.setTower t r).tower (otherTower t) = d.tower (otherTower t) := by cases t <;> rfl

theorem heater_setTower (d : Dryer) (t : Tower) (r : TowerRec) : (d.setTower t r).heater = d.heater := by
  cases t <;> rfl

theorem tower_withHeater (d : Dryer) (t : Tower) (h : Option Tower) :
    ({ d with heater := h } : Dryer).tower t = d.tower t := by cases t <;> rfl

namespace TowersSound

variable {d : Dryer} {t : Tower} {r : TowerRec}

/-- A tower's record replaced by one that is ON_LINE, and HEATING, as the old one is. -/
theorem setTower (h : TowersSound d) (ho : r.state = .onLine ↔ (d.tower t).state = .onLine)
    (hh : r.state = .heating ↔ (d.tower t).state = .heating) : TowersSound (d.setTower t r) := by
  rw [towersSound_iff _ t] at h ⊢
  rw [tower_setTower_same, tower_setTower_other, heater_setTower, ho, hh]
  exact h

/-- A HEATING tower leaves HEATING and frees the heater (R110, R111). -/
theorem freeHeater (h : TowersSound d) (hs : (d.tower t).state = .heating) (ho : r.state ≠ .onLine)
    (hh : r.state ≠ .heating) : TowersSound { d.setTower t r with heater := none } := by
  rw [towersSound_iff _ t] at h ⊢
  rw [tower_withHeater _ t, tower_withHeater _ (otherTower t), tower_setTower_same, tower_setTower_other]
  obtain ⟨hone, hown, hother⟩ := h
  have howner : d.heater = some t := hown.1 hs
  have hfree : (d.tower (otherTower t)).state ≠ .heating := fun k =>
    otherTower_ne t (Option.some.inj ((hother.1 k).symm.trans howner))
  have hon : (d.tower (otherTower t)).state = .onLine := by
    by_contra k
    exact absurd ((hone.2 k).symm.trans hs) (by decide)
  exact ⟨iff_of_false ho (not_not.2 hon), iff_of_false hh (by simp), iff_of_false hfree (by simp)⟩

/-- A tower takes a free heater (R109). -/
theorem startHeating {n : Nat} (h : TowersSound d) (hfree : d.heater = none)
    (hs : (d.tower t).state ≠ .onLine) : TowersSound (startHeating n t d) := by
  rw [towersSound_iff _ t] at h ⊢
  unfold Machine.startHeating
  rw [tower_withHeater _ t, tower_withHeater _ (otherTower t), tower_setTower_same, tower_setTower_other]
  obtain ⟨hone, -, hother⟩ := h
  have hon : (d.tower (otherTower t)).state = .onLine := by
    by_contra k
    exact hs (hone.2 k)
  refine ⟨iff_of_false (by simp) (not_not.2 hon), iff_of_true rfl rfl, iff_of_false ?_ ?_⟩
  · rw [hother, hfree]
    simp
  · simpa using (otherTower_ne t).symm

/-- After a switch the new tower is ON_LINE and the old one heats, whatever stood before (R108). -/
theorem switched (c : DryerCfg) (d : Dryer) : TowersSound (switched c d) := by
  rw [towersSound_iff _ (onLineTower d)]
  unfold Machine.switched Machine.startHeating
  cases onLineTower d <;> simp [otherTower, Dryer.setTower, Dryer.tower]

end TowersSound

/-- The tower in HOLD that takes the heater is not ON_LINE (R109). -/
theorem heldTower_hold {d : Dryer} {t : Tower} (h : heldTower d = some t) :
    (d.tower t).state = .hold := by
  unfold heldTower at h
  split at h
  · next ha => cases h; exact ha
  · split at h
    · next hb => cases h; exact hb
    · cases h

/-! ### The requests (R105) -/

/-- The states and requests are sound where the towers are and the requests are those they call for. -/
theorem dryerSound_iff (d : Dryer) (q : DriveReqs) :
    DryerSound d q ↔ TowersSound d ∧ q.twrA = decide (d.a.state = .onLine) ∧
      q.twrB = decide (d.b.state = .onLine) ∧ q.heater = d.heater.isSome := by
  unfold DryerSound TowersSound
  tauto

/-- Only the tower states and the heater's owner count, and of the requests those of the Dryer Unit. -/
theorem DryerSound.congr {d e : Dryer} {q r : DriveReqs} (h : DryerSound d q)
    (ha : e.a.state = d.a.state) (hb : e.b.state = d.b.state) (hh : e.heater = d.heater)
    (hq : requestsOf .dryer r = requestsOf .dryer q) : DryerSound e r := by
  simp only [requestsOf, List.cons.injEq, and_true] at hq
  obtain ⟨qa, qb, qh⟩ := hq
  unfold DryerSound
  rw [ha, hb, hh, qa, qb, qh]
  exact h

/-- From `s` to `t` only tower and heater requests change, and in `t` they are still those of the towers
(R105). -/
def TowersFollow (s t : State) : Prop :=
  KeepsOthers .dryer s.lines.requests t.lines.requests ∧
  (DryerSound s.dryer s.lines.requests → DryerSound t.dryer t.lines.requests)

namespace TowersFollow

variable {s₀ s t : State}

theorem refl (s : State) : TowersFollow s s := ⟨.refl _ _, id⟩

/-- Neither a tower's state, nor the heater's owner, nor a request changes. -/
theorem of_states (h : TowersFollow s₀ s) (ha : t.dryer.a.state = s.dryer.a.state)
    (hb : t.dryer.b.state = s.dryer.b.state) (hh : t.dryer.heater = s.dryer.heater)
    (hq : t.lines.requests = s.lines.requests) : TowersFollow s₀ t :=
  ⟨h.1.of_eq hq, fun k => (h.2 k).congr ha hb hh (congrArg _ hq)⟩

theorem post {k : EventKind} {d : Nat} (h : TowersFollow s₀ s) : TowersFollow s₀ (post k d s) := by
  refine h.of_states ?_ ?_ ?_ ?_
  all_goals simp only [post_dryer, post_lines]

theorem whenActive {f : State → State} (h : TowersFollow s₀ s) (hf : TowersFollow s₀ (f s)) :
    TowersFollow s₀ (whenActive s f) :=
  whenActive_keeps (TowersFollow s₀) s f h fun _ => hf

/-- The requests are set with the record, so that sound towers are enough. -/
theorem putDryer {d : Dryer} (h : TowersFollow s₀ s) (hd : TowersSound s.dryer → TowersSound d) :
    TowersFollow s₀ (putDryer d s) := by
  constructor
  · intro x hx
    rw [← h.1 x hx]
    cases x <;> first | rfl | exact absurd rfl hx
  · intro k
    exact (dryerSound_iff _ _).2 ⟨hd ((dryerSound_iff _ _).1 (h.2 k)).1, rfl, rfl, rfl⟩

theorem judgeSwitch (h : TowersFollow s₀ s) : TowersFollow s₀ (judgeSwitch s) := by
  unfold Machine.judgeSwitch
  split
  · exact .post (.putDryer h fun _ => .switched _ _)
  · exact h

theorem handOver (h : TowersFollow s₀ s) : TowersFollow s₀ (handOver s) := by
  unfold Machine.handOver
  split
  · next hfree =>
    split
    · next t ht => exact .putDryer h fun k => k.startHeating hfree.2 (by simp [heldTower_hold ht])
    · exact h
  · exact h

theorem faultTower {x : Tower} {cause : Nat} (h : TowersFollow s₀ s)
    (hs : (s.dryer.tower x).state = .heating) : TowersFollow s₀ (faultTower x cause s) :=
  .handOver (.post (.putDryer h fun k => k.freeHeater hs (by simp) (by simp)))

theorem halfHeat (x : Tower) (s : State) : TowersFollow s (halfHeat x s) := by
  refine (refl s).whenActive ?_
  dsimp only
  split
  · next hs =>
    have marked : TowersFollow s (Machine.putDryer
        (s.dryer.setTower x { s.dryer.tower x with halfMark := true }) s) :=
      .putDryer (refl s) fun k => k.setTower Iff.rfl Iff.rfl
    split
    · exact marked
    · refine marked.faultTower ?_
      show ((s.dryer.setTower x _).tower x).state = _
      rw [tower_setTower_same]
      exact hs.1
  · exact refl s

theorem heatEnd (x : Tower) (s : State) : TowersFollow s (heatEnd x s) := by
  refine (refl s).whenActive ?_
  dsimp only
  split
  · next hs => exact .handOver (.putDryer (refl s) fun k => k.freeHeater hs.1 (by simp) (by simp))
  · exact refl s

theorem coolEnd (x : Tower) (s : State) : TowersFollow s (coolEnd x s) := by
  refine (refl s).whenActive ?_
  dsimp only
  split
  · next hs => exact .judgeSwitch (.putDryer (refl s) fun k => k.setTower (by simp [hs.1]) (by simp [hs.1]))
  · exact refl s

theorem clearTowerBy {x : Tower} (h : TowersFollow s₀ s) : TowersFollow s₀ (clearTowerBy x s) := by
  unfold Machine.clearTowerBy
  split
  · next hs => exact .handOver (.putDryer h fun k => k.setTower (by simp [hs]) (by simp [hs]))
  · exact h.post

theorem takeClearTower (s : State) : TowersFollow s (takeClearTower s) := by
  refine takeBy_keeps (TowersFollow s) _ s _ (refl s) fun f rest g _ hg => ?_
  split at hg <;> cases hg
  exact .clearTowerBy (.of_states (refl s) rfl rfl rfl rfl)

theorem onLineRec_state (d : Dryer) (litres w : Nat) :
    ((d.setTower (onLineTower d) (loadTower litres w (onLineRec d))).a.state = d.a.state) ∧
    ((d.setTower (onLineTower d) (loadTower litres w (onLineRec d))).b.state = d.b.state) := by
  unfold onLineRec
  cases onLineTower d <;> exact ⟨rfl, rfl⟩

/-- Loading changes no tower's state (R106). -/
theorem takeDryerIncrement (s : State) : TowersFollow s (takeDryerIncrement s) := by
  refine (refl s).whenActive ?_
  split
  · exact refl s
  · dsimp only
    split
    · have states := onLineRec_state s.dryer
      exact .judgeSwitch (.of_states (refl s) (states _ _).1 (states _ _).2 (heater_setTower _ _ _) rfl)
    · exact .of_states (refl s) rfl rfl rfl rfl

theorem judgeDew {st : QState} {v : Int} (h : TowersFollow s₀ s) : TowersFollow s₀ (judgeDew st v s) := by
  simp only [Machine.judgeDew]
  split
  · exact .judgeSwitch (.post (.of_states h rfl rfl rfl rfl))
  · split
    · exact .post (.of_states h rfl rfl rfl rfl)
    · exact .of_states h rfl rfl rfl rfl

theorem takeDewUpdate (s : State) : TowersFollow s (takeDewUpdate s) := by
  refine (refl s).whenActive ?_
  split
  · exact refl s
  · exact .judgeDew (.of_states (refl s) rfl rfl rfl rfl)

theorem dryerEntry (s : State) : TowersFollow s (dryerEntry s) := by
  refine (refl s).whenActive ?_
  split
  · exact .judgeSwitch (.handOver (.of_states (refl s) rfl rfl rfl rfl))
  · exact refl s

end TowersFollow

end Sys2Proof.Machine
end

section
/-! The Direction Controller sets the three valve command requests and TRIP_OUT alone (R148): act by act,
no request of another block changes. -/

namespace Sys2Proof.Machine.KeepsOthers

variable {q : DriveReqs} {s : State}

theorem setValves {whv injv wdv trip : Bool} (h : KeepsOthers .direction q s.lines.requests) :
    KeepsOthers .direction q (setValves whv injv wdv trip s).lines.requests := by
  intro x hx
  rw [← h x hx]
  cases x <;> first | rfl | exact absurd rfl hx

theorem openValves {f : Flow} (h : KeepsOthers .direction q s.lines.requests) :
    KeepsOthers .direction q (openValves f s).lines.requests := by
  cases f <;> exact h.setValves

/-! ### Entries (R148) -/

theorem enterFlow {f : Flow} (h : KeepsOthers .direction q s.lines.requests) :
    KeepsOthers .direction q (enterFlow f s).lines.requests := by
  unfold Machine.enterFlow
  exact .post (.openValves (s := s.withDirection _) h)

theorem judgeLineup (h : KeepsOthers .direction q s.lines.requests) :
    KeepsOthers .direction q (judgeLineup s).lines.requests := by
  unfold Machine.judgeLineup
  split
  · exact h
  · split
    · exact h.enterFlow
    · exact h

theorem enterLineup {f : Flow} (h : KeepsOthers .direction q s.lines.requests) :
    KeepsOthers .direction q (enterLineup f s).lines.requests := by
  unfold Machine.enterLineup
  exact .judgeLineup (.openValves (s := s.withDirection _) h)

theorem judgeExit (h : KeepsOthers .direction q s.lines.requests) :
    KeepsOthers .direction q (judgeExit s).lines.requests := by
  unfold Machine.judgeExit
  split
  · split
    · exact h.enterLineup
    · exact h
  · exact h

theorem enterIdle (h : KeepsOthers .direction q s.lines.requests) :
    KeepsOthers .direction q (enterIdle s).lines.requests :=
  .judgeExit (.setValves (s := s.withDirection _) h)

theorem enterTripped {cause : TripCause} (h : KeepsOthers .direction q s.lines.requests) :
    KeepsOthers .direction q (enterTripped cause s).lines.requests :=
  .post (.setValves (s := s.withDirection _) h)

theorem beginClose (h : KeepsOthers .direction q s.lines.requests) :
    KeepsOthers .direction q (beginClose s).lines.requests := by
  simp only [Machine.beginClose]
  split
  · exact .enterIdle (.setValves (s := s.withDirection _) h)
  · exact .setValves (s := s.withDirection _) h

theorem enterRundown {f : Flow} (h : KeepsOthers .direction q s.lines.requests) :
    KeepsOthers .direction q (enterRundown f s).lines.requests := by
  simp only [Machine.enterRundown]
  split
  · exact .beginClose h
  · exact h

/-! ### Deliveries, the ramp, notices -/

theorem lineupDelivery {f : Flow} {d : Dir} (h : KeepsOthers .direction q s.lines.requests) :
    KeepsOthers .direction q (lineupDelivery f d s).lines.requests := by
  unfold Machine.lineupDelivery
  split
  · exact h
  · exact h.enterRundown

theorem flowDelivery {f : Flow} {d : Dir} (h : KeepsOthers .direction q s.lines.requests) :
    KeepsOthers .direction q (flowDelivery f d s).lines.requests := by
  unfold Machine.flowDelivery
  split
  · exact h
  · exact h.enterRundown

theorem deliver {p : Nat} {d : Dir} (h : KeepsOthers .direction q s.lines.requests) :
    KeepsOthers .direction q (deliver p d s).lines.requests := by
  simp only [Machine.deliver]
  split
  · exact .judgeExit h
  · exact .lineupDelivery h
  · exact .lineupDelivery h
  · exact .flowDelivery h
  · exact .flowDelivery h
  all_goals exact h

theorem takeDelivery (h : KeepsOthers .direction q s.lines.requests) :
    KeepsOthers .direction q (takeDelivery s).lines.requests := by
  refine h.whenActive ?_
  split
  · exact h
  · exact .deliver h

theorem closeAtZero (h : KeepsOthers .direction q s.lines.requests) :
    KeepsOthers .direction q (closeAtZero s).lines.requests := by
  unfold Machine.closeAtZero
  split
  · exact h.beginClose
  · exact h

theorem rampStep (h : KeepsOthers .direction q s.lines.requests) :
    KeepsOthers .direction q (rampStep s).lines.requests := by
  refine h.whenActive ?_
  split
  · exact .closeAtZero h
  · exact h

theorem takeNoticeOf {n : Notice} (h : KeepsOthers .direction q s.lines.requests) :
    KeepsOthers .direction q (takeNoticeOf n s).lines.requests := by
  simp only [Machine.takeNoticeOf]
  split
  · split
    · exact .judgeLineup h
    · exact h
  · split
    · exact .closeAtZero h
    · exact h

theorem takeNotice (h : KeepsOthers .direction q s.lines.requests) :
    KeepsOthers .direction q (takeNotice s).lines.requests := by
  refine h.whenActive ?_
  split
  · exact h
  · exact .takeNoticeOf h

/-! ### Feedbacks, trips, clears and timers -/

theorem judgeFeedback (h : KeepsOthers .direction q s.lines.requests) :
    KeepsOthers .direction q (judgeFeedback s).lines.requests := by
  unfold Machine.judgeFeedback
  split
  · exact h.judgeLineup
  · exact h.judgeLineup
  · split
    · exact h.enterIdle
    · exact h
  all_goals exact h

theorem valveChange (h : KeepsOthers .direction q s.lines.requests) (fb : ValveFb) :
    KeepsOthers .direction q (valveChange fb s).lines.requests := by
  refine h.whenActive ?_
  split
  · exact h
  · exact .judgeFeedback h

theorem estopOn (h : KeepsOthers .direction q s.lines.requests) :
    KeepsOthers .direction q (estopOn s).lines.requests := by
  refine h.takeLine _ _ fun t ht => ?_
  split
  · exact ht
  · exact ht.enterTripped

theorem clearTripped {source : Nat} (h : KeepsOthers .direction q s.lines.requests) :
    KeepsOthers .direction q (clearTripped source s).lines.requests :=
  .enterIdle (.post (s := s.withDirection _) h)

theorem clearByFrame (h : KeepsOthers .direction q s.lines.requests) :
    KeepsOthers .direction q (clearByFrame s).lines.requests := by
  unfold Machine.clearByFrame
  split
  · split
    · exact h.clearTripped
    · exact h.post
  · exact h.post

theorem clearByLine (h : KeepsOthers .direction q s.lines.requests) :
    KeepsOthers .direction q (clearByLine s).lines.requests := by
  unfold Machine.clearByLine
  split
  · split
    · exact h.clearTripped
    · exact h.post
  · exact h

theorem takeClearTrip (h : KeepsOthers .direction q s.lines.requests) :
    KeepsOthers .direction q (takeClearTrip s).lines.requests := by
  refine h.takeBy _ fun f g t hg ht => ?_
  split at hg <;> cases hg
  exact ht.clearByFrame

theorem lineupExpiry (h : KeepsOthers .direction q s.lines.requests) :
    KeepsOthers .direction q (lineupExpiry s).lines.requests := by
  refine h.whenActive ?_
  split
  · split
    · simp only [failLineup]
      split
      · exact .enterRundown (.post (s := s.withDirection _) h)
      · exact .enterTripped (.post (s := s.withDirection _) h)
    · exact h
  · exact h

theorem holdExpiry (h : KeepsOthers .direction q s.lines.requests) :
    KeepsOthers .direction q (holdExpiry s).lines.requests := by
  refine h.whenActive ?_
  split
  · split
    · exact h.enterRundown
    · exact h
  · exact h

theorem closeExpiry (h : KeepsOthers .direction q s.lines.requests) :
    KeepsOthers .direction q (closeExpiry s).lines.requests := by
  refine h.whenActive ?_
  split
  · exact h.enterTripped
  · exact h

theorem settleExpiry (h : KeepsOthers .direction q s.lines.requests) :
    KeepsOthers .direction q (settleExpiry s).lines.requests := by
  refine h.whenActive ?_
  split
  · exact .judgeExit h
  · exact h

theorem directionEntry (h : KeepsOthers .direction q s.lines.requests) :
    KeepsOthers .direction q (directionEntry s).lines.requests := by
  refine h.whenActive ?_
  split
  · exact .judgeExit h
  · exact h

end Sys2Proof.Machine.KeepsOthers
end

section
/-! What the Direction Controller's acts make of its record and of the requests (R148, R153, R157, R159 to
R166): each entry sets the valve commands of the state it enters, and R and the duty are 0 wherever the pad
neither flows nor ramps down. -/

namespace Sys2Proof.Machine

/-! ### Terms -/

/-- `DirectionSound` of a state's own record and requests. -/
def DirectionHolds (s : State) : Prop := DirectionSound s.direction s.lines.requests

theorem dutyOf_le (rfull r : Nat) : dutyOf rfull r ≤ 1000 := Nat.min_le_left _ _

theorem dutyOf_zero (rfull : Nat) : dutyOf rfull 0 = 0 := by simp [dutyOf]

theorem judgeHold_eq (holdTime : Nat) (d : Direction) :
    ∃ x, judgeHold holdTime d = { d with holdTimer := x } := by
  unfold judgeHold
  split
  · split
    · exact ⟨d.holdTimer, rfl⟩
    · exact ⟨_, rfl⟩
  · exact ⟨_, rfl⟩

theorem valvesToward_of_lineupFlow {d : Direction} {f : Flow} (h : lineupFlow d.state = some f) :
    valvesToward d = some f := by
  unfold valvesToward
  cases hs : d.state <;> rw [hs] at h <;> cases h <;> rfl

theorem valvesToward_of_flowing {d : Direction} {f : Flow} (h : flowing d.state = some f) :
    valvesToward d = some f := by
  unfold valvesToward
  cases hs : d.state <;> rw [hs] at h <;> cases h <;> rfl

/-- A pad whose valves are commanded toward a direction is not TRIPPED. -/
theorem ne_tripped_of_valvesToward {d : Direction} {f : Flow} (h : valvesToward d = some f) :
    d.state ≠ .tripped := by
  intro k
  rw [valvesToward, k] at h
  cases h

theorem flowing_flowState (f : Flow) : flowing (flowState f) = some f := by cases f <;> rfl

theorem lineupFlow_lineupState (f : Flow) : lineupFlow (lineupState f) = some f := by cases f <;> rfl

/-- On entry to a flowing state the hold judgement sets its timer alone (R157, R158). -/
theorem flowRec_eq (holdTime : Nat) (f : Flow) (d : Direction) :
    ∃ x, flowRec holdTime f d = { d with
      state := flowState f, r := 0, duty := 0, lineupFails := 0, lastFlow := some f
      rampTimer := .running Config.rampPeriod, lineupTimer := .stopped, holdTimer := x
      closeTimer := .stopped, settle := .stopped } := by
  obtain ⟨x, hx⟩ := judgeHold_eq holdTime { d with
    state := flowState f, r := 0, duty := 0, lineupFails := 0, lastFlow := some f
    rampTimer := .running Config.rampPeriod, lineupTimer := .stopped, holdTimer := .stopped
    closeTimer := .stopped, settle := .stopped }
  exact ⟨x, hx⟩

theorem clampR_eq (d : Direction) : ∃ r ≤ d.r, clampR d = { d with r := r } := by
  unfold clampR
  split
  · exact ⟨_, Nat.min_le_left _ _, rfl⟩
  · exact ⟨d.r, le_rfl, rfl⟩

/-- At rest outside INJECT and WITHDRAW the ramp has nowhere to go (R164). -/
theorem rampTarget_zero {d : Direction} (hi : d.state ≠ .inject) (hw : d.state ≠ .withdraw)
    (hr : d.r = 0) : rampTarget d = 0 := by
  unfold rampTarget
  cases hs : d.state with
  | inject => exact absurd hs hi
  | withdraw => exact absurd hs hw
  | rundown => rfl
  | idle | lineupInj | lineupWd | tripped => exact hr

/-- A ramp step changes R, the duty and held C_run alone, and leaves R at 0 outside INJECT and WITHDRAW
(R164 to R166). -/
theorem stepRec_eq (c : StationCfg) (run : Nat) (d : Direction) :
    ∃ r, stepRec c run d = { d with heldCrun := run, r := r, duty := dutyOf c.rfull r } ∧
      (d.state ≠ .inject → d.state ≠ .withdraw → d.r = 0 → r = 0) := by
  obtain ⟨r, hle, hclamp⟩ := clampR_eq { d with heldCrun := run }
  simp only [stepRec, hclamp]
  refine ⟨_, rfl, fun hi hw hr => ?_⟩
  obtain rfl : r = 0 := Nat.le_zero.1 (hle.trans (Nat.le_zero.2 hr))
  rw [rampTarget_zero (d := { d with heldCrun := run, r := 0 }) hi hw rfl]
  simp [moveR]

namespace DirectionHolds

variable {s : State}

theorem cause (h : DirectionHolds s) (hs : s.direction.state ≠ .tripped) : s.direction.cause = none := by
  obtain ⟨-, -, -, -, hcause, -⟩ := h
  exact hcause.2 hs

/-- R and the duty outside INJECT, WITHDRAW and a ramping RUNDOWN. -/
theorem atRest (h : DirectionHolds s) (hi : s.direction.state ≠ .inject)
    (hw : s.direction.state ≠ .withdraw)
    (hr : ¬(s.direction.state = .rundown ∧ s.direction.phase = .ramp)) :
    s.direction.r = 0 ∧ s.direction.duty = 0 := by
  obtain ⟨-, -, -, -, -, -, hrest⟩ := h
  exact hrest hi hw hr

theorem post {k : EventKind} {d : Nat} (h : DirectionHolds s) : DirectionHolds (post k d s) := by
  unfold DirectionHolds
  rw [post_direction, post_lines]
  exact h

theorem whenActive {f : State → State} (h : DirectionHolds s) (hf : DirectionHolds (f s)) :
    DirectionHolds (whenActive s f) :=
  whenActive_keeps DirectionHolds s f h fun _ => hf

/-! ### Entries (R148) -/

/-- A record put in force together with the requests its state calls for. -/
theorem of_setValves {d : Direction} {f : Option Flow} {whv injv wdv trip : Bool}
    (hf : valvesToward d = f) (hwhv : whv = f.isSome) (hinjv : injv = decide (f = some .inj))
    (hwdv : wdv = decide (f = some .wd)) (htrip : trip = decide (d.state = .tripped))
    (hcause : d.cause = none ↔ d.state ≠ .tripped) (hduty : d.duty ≤ 1000)
    (hrest : d.state ≠ .inject → d.state ≠ .withdraw → ¬(d.state = .rundown ∧ d.phase = .ramp) →
      d.r = 0 ∧ d.duty = 0) :
    DirectionHolds (setValves whv injv wdv trip (s.withDirection d)) := by
  subst hf
  exact ⟨hwhv, hinjv, hwdv, htrip, hcause, hduty, hrest⟩

/-- A lineup's or a flowing state's record put in force with the valves that open its direction. -/
theorem of_openValves {d : Direction} {f : Flow} (hf : valvesToward d = some f) (hc : d.cause = none)
    (hr : d.r = 0) (hduty : d.duty = 0) : DirectionHolds (openValves f (s.withDirection d)) := by
  have hs := ne_tripped_of_valvesToward hf
  have hcause : d.cause = none ↔ d.state ≠ .tripped := iff_of_true hc hs
  have htrip : false = decide (d.state = .tripped) := (decide_eq_false hs).symm
  have hle : d.duty ≤ 1000 := hduty.le.trans (Nat.zero_le _)
  cases f with
  | inj => exact .of_setValves hf rfl rfl rfl htrip hcause hle fun _ _ _ => ⟨hr, hduty⟩
  | wd => exact .of_setValves hf rfl rfl rfl htrip hcause hle fun _ _ _ => ⟨hr, hduty⟩

theorem enterFlow (f : Flow) (hc : s.direction.cause = none) : DirectionHolds (enterFlow f s) := by
  obtain ⟨x, hx⟩ := flowRec_eq s.cfg.station.holdTime f s.direction
  have entered : DirectionHolds (openValves f
      (s.withDirection (flowRec s.cfg.station.holdTime f s.direction))) := by
    rw [hx]
    exact .of_openValves (valvesToward_of_flowing (flowing_flowState f)) hc rfl rfl
  exact .post entered

theorem judgeLineup (h : DirectionHolds s) : DirectionHolds (judgeLineup s) := by
  unfold Machine.judgeLineup
  split
  · exact h
  · next f hf =>
    split
    · exact .enterFlow f (h.cause (ne_tripped_of_valvesToward (valvesToward_of_lineupFlow hf)))
    · exact h

theorem enterLineup (f : Flow) (hc : s.direction.cause = none) (hr : s.direction.r = 0) :
    DirectionHolds (enterLineup f s) := by
  have entered (d : Direction) (hd : valvesToward d = some f) (k : d.cause = none) (k0 : d.r = 0)
      (kd : d.duty = 0) : DirectionHolds (tellTrain (openValves f (s.withDirection d))) :=
    .of_openValves hd k k0 kd
  exact .judgeLineup (entered _ (valvesToward_of_lineupFlow (lineupFlow_lineupState f)) hc hr rfl)

theorem judgeExit (h : DirectionHolds s) : DirectionHolds (judgeExit s) := by
  unfold Machine.judgeExit
  split
  · next hs =>
    split
    · next f _ =>
      have hr := h.atRest (by simp [hs]) (by simp [hs]) (by simp [hs])
      exact .enterLineup f (h.cause (by simp [hs])) hr.1
    · exact h
  · exact h

theorem enterIdle (hc : s.direction.cause = none) (hr : s.direction.r = 0) :
    DirectionHolds (enterIdle s) :=
  have entered : DirectionHolds (setValves false false false false
      (s.withDirection (idleRec s.cfg.station.settleTime s.direction))) :=
    .of_setValves (f := none) rfl rfl rfl rfl rfl (iff_of_true hc nofun) (Nat.zero_le _)
      fun _ _ _ => ⟨hr, rfl⟩
  .judgeExit entered

theorem enterTripped (cause : TripCause) (s : State) : DirectionHolds (enterTripped cause s) :=
  .post ⟨rfl, rfl, rfl, rfl, iff_of_false nofun (not_not.2 rfl), Nat.zero_le _, fun _ _ _ => ⟨rfl, rfl⟩⟩

theorem beginClose (hs : s.direction.state = .rundown) (hc : s.direction.cause = none)
    (hr : s.direction.r = 0) : DirectionHolds (beginClose s) := by
  simp only [Machine.beginClose]
  split
  · exact .enterIdle hc hr
  · refine .of_setValves (f := none) ?_ rfl rfl rfl ?_ (iff_of_true hc ?_) (dutyOf_le _ _)
      fun _ _ _ => ⟨hr, ?_⟩
    · simp [valvesToward, hs]
    · simp [hs]
    · simp [hs]
    · simp [hr, dutyOf_zero]

/-- RUNDOWN keeps the valve commands of the direction it runs down from (R148, R159). -/
theorem enterRundown {f : Flow} (h : DirectionHolds s) (hf : valvesToward s.direction = some f) :
    DirectionHolds (enterRundown f s) := by
  have hs := ne_tripped_of_valvesToward hf
  simp only [Machine.enterRundown]
  split
  · next hr => exact .beginClose rfl (h.cause hs) hr
  · have hc := h.cause hs
    obtain ⟨hwhv, hinjv, hwdv, htrip, -⟩ := h
    rw [hf] at hwhv hinjv hwdv
    exact ⟨hwhv, hinjv, hwdv, htrip.trans (decide_eq_false hs), iff_of_true hc nofun,
      dutyOf_le _ _, fun _ _ k => absurd ⟨rfl, rfl⟩ k⟩

/-! ### Deliveries (R150, R156, R158) -/

theorem lineupDelivery {f : Flow} {d : Dir} (h : DirectionHolds s)
    (hf : valvesToward s.direction = some f) : DirectionHolds (lineupDelivery f d s) := by
  unfold Machine.lineupDelivery
  split
  · exact h
  · exact h.enterRundown hf

theorem flowDelivery {f : Flow} {d : Dir} (h : DirectionHolds s)
    (hf : valvesToward s.direction = some f) : DirectionHolds (flowDelivery f d s) := by
  unfold Machine.flowDelivery
  split
  · obtain ⟨x, hx⟩ := judgeHold_eq s.cfg.station.holdTime s.direction
    rw [hx]
    exact h
  · exact h.enterRundown hf

theorem deliver {p : Nat} {d : Dir} (h : DirectionHolds s) : DirectionHolds (deliver p d s) := by
  have held : DirectionHolds (s.withDirection { s.direction with heldP := p, heldD := d }) := h
  have lineup (f : Flow) (hs : lineupFlow s.direction.state = some f) :=
    held.lineupDelivery (d := d) (valvesToward_of_lineupFlow hs)
  have flow (f : Flow) (hs : flowing s.direction.state = some f) :=
    held.flowDelivery (d := d) (valvesToward_of_flowing hs)
  simp only [Machine.deliver]
  split
  · exact held.judgeExit
  · next hs => exact lineup .inj (congrArg lineupFlow hs)
  · next hs => exact lineup .wd (congrArg lineupFlow hs)
  · next hs => exact flow .inj (congrArg flowing hs)
  · next hs => exact flow .wd (congrArg flowing hs)
  · exact held
  · exact held

theorem takeDelivery (h : DirectionHolds s) : DirectionHolds (takeDelivery s) := by
  refine h.whenActive ?_
  split
  · exact h
  · exact .deliver h

/-! ### The ramp and the notices (R164, R165) -/

/-- R and the duty replaced, at 0 where they are at rest. -/
theorem withRamp {run r rfull : Nat} (h : DirectionHolds s)
    (hr : s.direction.state ≠ .inject → s.direction.state ≠ .withdraw → s.direction.r = 0 → r = 0) :
    DirectionHolds (s.withDirection { s.direction with
      heldCrun := run, r := r, duty := dutyOf rfull r }) := by
  have hrest := h.atRest
  obtain ⟨hwhv, hinjv, hwdv, htrip, hcause, -⟩ := h
  refine ⟨hwhv, hinjv, hwdv, htrip, hcause, dutyOf_le _ _, fun hi hw hp => ?_⟩
  obtain rfl : r = 0 := hr hi hw (hrest hi hw hp).1
  exact ⟨rfl, dutyOf_zero _⟩

theorem closeAtZero (h : DirectionHolds s) : DirectionHolds (closeAtZero s) := by
  unfold Machine.closeAtZero
  split
  · next hs =>
    obtain ⟨hrun, -, hr⟩ := hs
    exact .beginClose hrun (h.cause (by simp [hrun])) hr
  · exact h

theorem rampStep (h : DirectionHolds s) : DirectionHolds (rampStep s) := by
  refine h.whenActive ?_
  split
  · obtain ⟨r, hx, hr⟩ := stepRec_eq s.cfg.station (cRun s) s.direction
    rw [hx]
    exact (h.withRamp hr).closeAtZero
  · exact h

theorem takeNoticeOf {n : Notice} (h : DirectionHolds s) : DirectionHolds (takeNoticeOf n s) := by
  have held : DirectionHolds (s.withDirection { s.direction with heldCrun := n.cRun }) := h
  simp only [Machine.takeNoticeOf]
  split
  · split
    · exact held.judgeLineup
    · exact held
  · split
    · next hlow =>
      refine .closeAtZero (.withRamp h fun _ _ hr => ?_)
      have hlt : n.cRun < s.direction.r := hlow.2
      omega
    · exact held

theorem takeNotice (h : DirectionHolds s) : DirectionHolds (takeNotice s) := by
  refine h.whenActive ?_
  split
  · exact h
  · exact .takeNoticeOf h

/-! ### Feedbacks, trips, clears and timers -/

theorem judgeFeedback (h : DirectionHolds s) : DirectionHolds (judgeFeedback s) := by
  unfold Machine.judgeFeedback
  split
  · exact h.judgeLineup
  · exact h.judgeLineup
  · next hs =>
    split
    · next hclose =>
      have hr := h.atRest (by simp [hs]) (by simp [hs]) (by simp [hclose.1])
      exact .enterIdle (h.cause (by simp [hs])) hr.1
    · exact h
  all_goals exact h

theorem valveChange (h : DirectionHolds s) (fb : ValveFb) : DirectionHolds (valveChange fb s) := by
  refine h.whenActive ?_
  split
  · exact h
  · exact .judgeFeedback h

theorem estopOn (h : DirectionHolds s) : DirectionHolds (estopOn s) := by
  refine takeLine_keeps DirectionHolds _ _ s _ h fun rest _ => ?_
  split
  · exact h
  · exact .enterTripped _ _

/-- R is 0 in TRIPPED, so that IDLE finds it so (R162, R163). -/
theorem clearTripped {source : Nat} (h : DirectionHolds s) (hs : s.direction.state = .tripped) :
    DirectionHolds (clearTripped source s) := by
  have hr := h.atRest (by simp [hs]) (by simp [hs]) (by simp [hs])
  refine .enterIdle ?_ ?_ <;> rw [post_direction]
  · rfl
  · exact hr.1

theorem clearByFrame (h : DirectionHolds s) : DirectionHolds (clearByFrame s) := by
  unfold Machine.clearByFrame
  split
  · next hs =>
    split
    · exact h.clearTripped hs
    · exact h.post
  · exact h.post

theorem clearByLine (h : DirectionHolds s) : DirectionHolds (clearByLine s) := by
  unfold Machine.clearByLine
  split
  · next hs =>
    split
    · exact h.clearTripped hs
    · exact h.post
  · exact h

theorem takeClearTrip (h : DirectionHolds s) : DirectionHolds (takeClearTrip s) := by
  refine takeBy_keeps DirectionHolds _ s _ h fun f rest g _ hg => ?_
  split at hg <;> cases hg
  exact .clearByFrame h

theorem clearInOn (h : DirectionHolds s) : DirectionHolds (clearInOn s) :=
  takeLine_keeps DirectionHolds _ _ s _ h fun _ _ => .clearByLine h

theorem lineupExpiry (h : DirectionHolds s) : DirectionHolds (lineupExpiry s) := by
  refine h.whenActive ?_
  split
  · split
    · next f hf =>
      have counted (n : Nat) (e : Nat) : DirectionHolds (Machine.post .lineupFail e (s.withDirection
          { s.direction with lineupFails := n, lineupTimer := .stopped })) := .post h
      simp only [failLineup]
      split
      · refine (counted _ _).enterRundown ?_
        rw [post_direction]
        exact valvesToward_of_lineupFlow hf
      · exact .enterTripped _ _
    · exact h
  · exact h

theorem holdExpiry (h : DirectionHolds s) : DirectionHolds (holdExpiry s) := by
  refine h.whenActive ?_
  split
  · split
    · next f hf => exact h.enterRundown (valvesToward_of_flowing hf)
    · exact h
  · exact h

theorem closeExpiry (h : DirectionHolds s) : DirectionHolds (closeExpiry s) := by
  refine h.whenActive ?_
  split
  · exact .enterTripped _ _
  · exact h

theorem settleExpiry (h : DirectionHolds s) : DirectionHolds (settleExpiry s) := by
  refine h.whenActive ?_
  split
  · exact .judgeExit h
  · exact h

theorem directionEntry (h : DirectionHolds s) : DirectionHolds (directionEntry s) := by
  refine h.whenActive ?_
  split
  · exact .judgeExit h
  · exact h

end DirectionHolds

/-- The record and the Direction Controller's own requests are all that counts. -/
theorem DirectionHolds.congr {s t : State} (h : DirectionHolds s) (hd : t.direction = s.direction)
    (hq : requestsOf .direction t.lines.requests = requestsOf .direction s.lines.requests) :
    DirectionHolds t := by
  simp only [requestsOf, List.cons.injEq, and_true] at hq
  obtain ⟨hwhv, hinjv, hwdv, htrip⟩ := hq
  unfold DirectionHolds DirectionSound
  rw [hd, hwhv, hinjv, hwdv, htrip]
  exact h

end Sys2Proof.Machine
end

section
/-! Every command keeps the drive requests those of the states they stand for: the commands of the block that
owns the requests by the sections above, the others since they change neither its record nor its
requests. -/

namespace Sys2Proof.Machine

/-! ### The commands of each block -/

/-- The end of the image read changes nothing, or enters CONFIG_FAULT or LISTENING (R205). -/
theorem takeImageBody_induct (p : State → Prop) (rest : List Byte) (s : State) (hs : p s)
    (hf : p (enterConfigFault s)) (hl : ∀ img sig, p (enterListening img sig s)) :
    p (takeImageBody rest s) := by
  unfold takeImageBody
  split
  · split
    · split
      · dsimp only
        split
        · exact hf
        · exact hl _ _
      · exact hs
    all_goals exact hs
  · exact hs

theorem UnitsFollow.takeImageBody (rest : List Byte) (s : State) :
    UnitsFollow s (takeImageBody rest s) :=
  takeImageBody_induct (UnitsFollow s) rest s (.refl s) (.of_states (.refl s) rfl rfl rfl)
    fun _ _ => .of_states (.refl s) rfl rfl rfl

theorem TowersFollow.takeImageBody (rest : List Byte) (s : State) :
    TowersFollow s (takeImageBody rest s) :=
  takeImageBody_induct (TowersFollow s) rest s (.refl s) (.of_states (.refl s) rfl rfl rfl rfl)
    fun _ _ => .of_states (.refl s) rfl rfl rfl rfl

theorem exec_unitsFollow {c : Instr} {s t : State} (hx : exec c s = .next t)
    (hc : Block.compressor ∈ touches c) (hr : c ≠ .reset) (hd : c ≠ .statusTake) : UnitsFollow s t := by
  cases c with
  | reset => exact absurd rfl hr
  | statusTake => exact absurd rfl hd
  | configImageRead rest => cases hx; exact .takeImageBody rest s
  | clearUnit => cases hx; exact .takeClearUnit s
  | shareCycle => cases hx; exact .shareCycle s
  | startTimeoutExpiry u => cases hx; exact .startTimeout u s
  | runFeedbackAssertion u => cases hx; exact .feedbackOn u s
  | runFeedbackRelease u => cases hx; exact .feedbackOff u s
  | faultInputAssertion u => cases hx; exact .faultOn u s
  | faultInputRelease u => cases hx; exact .faultOff u s
  | runClockExpiry u => cases hx; exact .runClock u s
  | minimumRunExpiry u => cases hx; exact .minRunExpiry u s
  | minimumStopExpiry u => cases hx; exact .minStopExpiry u s
  | cooldownExpiry u => cases hx; exact .cooldownEnd u s
  | startDwellExpiry => cases hx; exact .startDwellEnd s
  | stopDwellExpiry => cases hx; exact .stopDwellEnd s
  | trainDirectionChange => cases hx; exact .trainDirectionChange s
  | _ => simp [touches] at hc

theorem exec_towersFollow {c : Instr} {s t : State} (hx : exec c s = .next t)
    (hc : Block.dryer ∈ touches c) (hr : c ≠ .reset) (hd : c ≠ .statusTake) (hs : c ≠ .shareCycle) :
    TowersFollow s t := by
  cases c with
  | reset => exact absurd rfl hr
  | statusTake => exact absurd rfl hd
  | shareCycle => exact absurd rfl hs
  | configImageRead rest => cases hx; exact .takeImageBody rest s
  | clearTower => cases hx; exact .takeClearTower s
  | dryerIncrementTake => cases hx; exact .takeDryerIncrement s
  | halfHeatPoint w => cases hx; exact .halfHeat w s
  | heatTimeExpiry w => cases hx; exact .heatEnd w s
  | coolTimeExpiry w => cases hx; exact .coolEnd w s
  | dewOutUpdate => cases hx; exact .takeDewUpdate s
  | dryerRunningEntry => cases hx; exact .dryerEntry s
  | _ => simp [touches] at hc

theorem exec_directionFollows {c : Instr} {s t : State} (hx : exec c s = .next t)
    (hc : Block.direction ∈ touches c) (hr : c ≠ .reset) (hd : c ≠ .statusTake) :
    KeepsOthers .direction s.lines.requests t.lines.requests ∧ (DirectionHolds s → DirectionHolds t) := by
  have h : KeepsOthers .direction s.lines.requests s.lines.requests := .refl _ _
  cases c with
  | reset => exact absurd rfl hr
  | statusTake => exact absurd rfl hd
  | clearTrip => cases hx; exact ⟨h.takeClearTrip, .takeClearTrip⟩
  | shareDelivery => cases hx; exact ⟨h.takeDelivery, .takeDelivery⟩
  | compressorNotice => cases hx; exact ⟨h.takeNotice, .takeNotice⟩
  | valveFeedbackChange fb => cases hx; exact ⟨h.valveChange fb, fun k => k.valveChange fb⟩
  | estopInAssertion => cases hx; exact ⟨h.estopOn, .estopOn⟩
  | clearInAssertion => cases hx; exact ⟨h.takeLine _ _ fun _ ht => ht.clearByLine, .clearInOn⟩
  | lineupTimerExpiry => cases hx; exact ⟨h.lineupExpiry, .lineupExpiry⟩
  | holdTimerExpiry => cases hx; exact ⟨h.holdExpiry, .holdExpiry⟩
  | rampStep => cases hx; exact ⟨h.rampStep, .rampStep⟩
  | closeTimerExpiry => cases hx; exact ⟨h.closeExpiry, .closeExpiry⟩
  | settleTimerExpiry => cases hx; exact ⟨h.settleExpiry, .settleExpiry⟩
  | directionRunningEntry => cases hx; exact ⟨h.directionEntry, .directionEntry⟩
  | _ => simp [touches] at hc

/-! ### The commands of the other blocks -/

/-- A command of none of the three blocks sets no request. -/
theorem exec_requests_eq {c : Instr} {s t : State} (hx : exec c s = .next t)
    (hu : Block.compressor ∉ touches c) (hw : Block.dryer ∉ touches c)
    (hv : Block.direction ∉ touches c) : t.lines.requests = s.lines.requests := by
  by_cases hl : Block.lines ∈ touches c
  · cases c with
    | senseLevelChange n high => rw [onLine_next hx, senseLevelChange_requests]
    | stabilityTimerExpiry n => rw [onLine_next hx, stabilityExpiry_requests]
    | countPulse n high => rw [onLine_next hx, countEdge_requests]
    | pwmPeriodStart => cases hx; exact applyDuty_requests s
    | meterInterval => cases hx; exact interval_requests s
    | _ => simp [touches, everyBlock] at hl hu hw hv
  · exact congrArg FieldLines.requests (exec_keeps c hx .lines hl)

theorem KeepsOthers.untouched {o b : Block} {bs : List Block} {q r : DriveReqs} (h : KeepsOthers o q r)
    (ho : o ∈ bs) (hb : b ∉ bs) : requestsOf b r = requestsOf b q :=
  h b (ne_of_mem_of_not_mem ho hb).symm

/-- A command sets no request of a block that it does not touch. -/
theorem exec_requestsOf {c : Instr} {s t : State} {b : Block} (hx : exec c s = .next t)
    (hb : b ∉ touches c) (hr : c ≠ .reset) (hd : c ≠ .statusTake) :
    requestsOf b t.lines.requests = requestsOf b s.lines.requests := by
  by_cases hu : Block.compressor ∈ touches c
  · exact (exec_unitsFollow hx hu hr hd).1.untouched hu hb
  by_cases hw : Block.dryer ∈ touches c
  · have hs : c ≠ .shareCycle := by
      rintro rfl
      exact hu (by decide)
    exact (exec_towersFollow hx hw hr hd hs).1.untouched hw hb
  by_cases hv : Block.direction ∈ touches c
  · exact (exec_directionFollows hx hv hr hd).1.untouched hv hb
  · rw [exec_requests_eq hx hu hw hv]

/-! ### A STATUS taken (R51, R209) -/

/-- A STATUS enters DUPLICATE, or is filed: the records and the requests stand. -/
theorem takeStatus_cases (s : State) :
    (∃ u, takeStatus s = enterDuplicate u ∧ u.lines = s.lines ∧ u.dryer = s.dryer) ∨
    KeepsAllBut [.link, .roster, .events] s (takeStatus s) := by
  refine takeBy_keeps (fun t => (∃ u, t = enterDuplicate u ∧ u.lines = s.lines ∧ u.dryer = s.dryer) ∨
    KeepsAllBut [.link, .roster, .events] s t) _ s _ (.inr (.refl _ _)) fun f rest g _ hg => ?_
  have taken : KeepsAllBut [.link, .roster, .events] s (s.withLink { s.link with buffers := rest }) :=
    (withLink_keeps s _).mono (by decide)
  split at hg <;> cases hg
  split
  · unfold takeDuplicate
    split
    · exact .inl ⟨_, rfl, rfl, rfl⟩
    · exact .inr (taken.then ((post_keeps _ _ _).mono (by decide)))
  · exact .inr (taken.then ((takePeerStatus_keeps _ _ _).mono (by decide)))

theorem takeStatus_unitsSound {s : State} (h : UnitsSound s.compressor s.lines.requests) :
    UnitsSound (takeStatus s).compressor (takeStatus s).lines.requests := by
  obtain ⟨u, hu, -, -⟩ | k := takeStatus_cases s
  · rw [hu]
    exact ⟨rfl, rfl⟩
  · have hc : (takeStatus s).compressor = s.compressor := k .compressor (by decide)
    have hl : (takeStatus s).lines = s.lines := k .lines (by decide)
    rwa [hc, hl]

/-- The towers, the heater and their requests stand in DUPLICATE (R121). -/
theorem takeStatus_dryerSound {s : State} (h : DryerSound s.dryer s.lines.requests) :
    DryerSound (takeStatus s).dryer (takeStatus s).lines.requests := by
  obtain ⟨u, hu, hlu, hdu⟩ | k := takeStatus_cases s
  · rw [← hlu, ← hdu] at h
    rw [hu]
    exact h.congr rfl rfl rfl rfl
  · have hd : (takeStatus s).dryer = s.dryer := k .dryer (by decide)
    have hl : (takeStatus s).lines = s.lines := k .lines (by decide)
    rwa [hd, hl]

theorem takeStatus_directionHolds {s : State} (h : DirectionHolds s) : DirectionHolds (takeStatus s) := by
  obtain ⟨u, hu, -, -⟩ | k := takeStatus_cases s
  · rw [hu]
    exact directionSound_reset
  · have hl : (takeStatus s).lines = s.lines := k .lines (by decide)
    exact h.congr (k .direction (by decide)) (by rw [hl])

/-! ### Every command -/

theorem exec_unitsSound {c : Instr} {s t : State} (hx : exec c s = .next t)
    (h : UnitsSound s.compressor s.lines.requests) : UnitsSound t.compressor t.lines.requests := by
  by_cases hr : c = .reset
  · subst hr; cases hx; exact unitsSound_reset
  by_cases hd : c = .statusTake
  · subst hd; cases hx; exact takeStatus_unitsSound h
  by_cases hu : Block.compressor ∈ touches c
  · exact (exec_unitsFollow hx hu hr hd).2 h
  · have hc : t.compressor = s.compressor := exec_keeps c hx .compressor hu
    have hq := exec_requestsOf hx hu hr hd
    simp only [requestsOf, List.cons.injEq, and_true] at hq
    rw [hc]
    exact ⟨hq.1.trans h.1, hq.2.trans h.2⟩

/-- Of the Dryer Unit a share cycle changes the limit alone (R118). -/
theorem shareCycle_dryerSound {s : State} (h : DryerSound s.dryer s.lines.requests) :
    DryerSound (shareCycle s).dryer (shareCycle s).lines.requests := by
  have hq := (UnitsFollow.shareCycle s).1 .dryer (by decide)
  refine whenActive_keeps (fun t => requestsOf .dryer t.lines.requests = requestsOf .dryer s.lines.requests →
    DryerSound t.dryer t.lines.requests) s _ (fun _ => h) (fun _ => ?_) hq
  split
  · intro k
    have hd : (runShare s).dryer = (storeShare (shareCompute s.cfg.station (shareInputs s)) s).dryer :=
      judgeDuty_keeps _ .dryer (by decide)
    rw [hd]
    exact h.congr rfl rfl rfl k
  · exact fun _ => h

theorem exec_dryerSound {c : Instr} {s t : State} (hx : exec c s = .next t)
    (h : DryerSound s.dryer s.lines.requests) : DryerSound t.dryer t.lines.requests := by
  by_cases hr : c = .reset
  · subst hr; cases hx; exact dryerSound_reset
  by_cases hd : c = .statusTake
  · subst hd; cases hx; exact takeStatus_dryerSound h
  by_cases hs : c = .shareCycle
  · subst hs; cases hx; exact shareCycle_dryerSound h
  by_cases hw : Block.dryer ∈ touches c
  · exact (exec_towersFollow hx hw hr hd hs).2 h
  · have hsame : t.dryer = s.dryer := exec_keeps c hx .dryer hw
    rw [hsame]
    exact h.congr rfl rfl rfl (exec_requestsOf hx hw hr hd)

theorem exec_directionHolds {c : Instr} {s t : State} (hx : exec c s = .next t) (h : DirectionHolds s) :
    DirectionHolds t := by
  by_cases hr : c = .reset
  · subst hr; cases hx; exact directionSound_reset
  by_cases hd : c = .statusTake
  · subst hd; cases hx; exact takeStatus_directionHolds h
  by_cases hv : Block.direction ∈ touches c
  · exact (exec_directionFollows hx hv hr hd).2 h
  · exact h.congr (exec_keeps c hx .direction hv) (exec_requestsOf hx hv hr hd)

/-- Settles O57: the three invariants for the command at the front (`exec_dryerSound`, `exec_unitsSound`,
`exec_directionHolds`); an idle step changes nothing. -/
theorem stepsKeepRequestsWithTheirStates : Obligations.StepsKeepRequestsWithTheirStates := by
  intro s t h
  obtain rfl | ⟨c, rest, -, hx⟩ := step_next h
  · exact ⟨id, id, id⟩
  · exact ⟨exec_dryerSound (s := s.withPending rest) hx, exec_unitsSound (s := s.withPending rest) hx,
      exec_directionHolds (s := s.withPending rest) hx⟩

end Sys2Proof.Machine
end

section
/-! The Compressor Duty Unit's functions, each said once: entering and leaving RUNNING, requests, lead choice,
trips (R82 to R97). -/

namespace Sys2Proof.Machine

/-! ### Entering and leaving RUNNING (R84 to R87) -/

theorem markTimer_eq (n : Nat) :
    markTimer n = (if n = 0 then .stopped else .running (n * 1000), decide (n = 0)) := by
  unfold markTimer
  split
  · next h => simp [h]
  · next h => simp [h, Timer.ofSeconds]

theorem enterRunning_eq (u : UnitId) (s : State) :
    let r := s.compressor.unit u
    let c := s.compressor.setUnit u { r with
      state := .running, fails := 0, stateTimer := .stopped, runClock := .running 1000
      minRun := if s.cfg.compressor.minRun = 0 then .stopped
        else .running (s.cfg.compressor.minRun * 1000)
      minRunMark := decide (s.cfg.compressor.minRun = 0)
      lag := decide ((s.compressor.unit (otherUnit u)).state = .running) }
    enterRunning u s = { s with
      compressor := c
      inbox := { s.inbox with notices := s.inbox.notices ++
        [{ entered := true, cRun := cRun { s with compressor := c } }] } } := by
  unfold enterRunning
  rw [markTimer_eq]
  rfl

/-- The record of a unit that leaves STARTING or RUNNING. -/
def leftRec (u : UnitId) (dest : UnitState) (s : State) : UnitRec :=
  { s.compressor.unit u with
    state := dest
    stateTimer := if dest = .cooldown then .running (s.cfg.compressor.cooldown * 1000) else .stopped
    runClock := .stopped, minRun := .stopped
    minStop := if s.cfg.compressor.minStop = 0 then .stopped
      else .running (s.cfg.compressor.minStop * 1000)
    minStopMark := decide (s.cfg.compressor.minStop = 0)
    lag := false, passedOver := (s.compressor.unit u).passedOver || s.compressor.lineup }

/-- Both records after a unit has left: the other unit loses its lag mark where the unit was RUNNING. -/
def leftUnits (u : UnitId) (dest : UnitState) (s : State) : Compressor :=
  let o := s.compressor.unit (otherUnit u)
  (s.compressor.setUnit u (leftRec u dest s)).setUnit (otherUnit u)
    (if (s.compressor.unit u).state = .running then { o with lag := false } else o)

theorem leaveTo_eq (u : UnitId) (dest : UnitState) (s : State) : leaveTo u dest s = { s with
    compressor := leftUnits u dest s
    lines := (setRunCmd u false s).lines
    inbox := if (s.compressor.unit u).state = .running then { s.inbox with notices := s.inbox.notices ++
      [{ entered := false, cRun := cRun { s with compressor := leftUnits u dest s } }] } else s.inbox } := by
  unfold leaveTo leftUnits
  rw [markTimer_eq]
  by_cases hr : (s.compressor.unit u).state = .running
  · have hr' : decide ((s.unit u).state = .running) = true := decide_eq_true hr
    simp only [hr', hr, if_true]
    cases u <;> rfl
  · have hr' : ¬decide ((s.unit u).state = .running) = true := fun k => hr (of_decide_eq_true k)
    simp only [hr', hr, if_false]
    cases u <;> rfl

theorem leaveTo_compressor (u : UnitId) (dest : UnitState) (s : State) :
    (leaveTo u dest s).compressor = leftUnits u dest s := by rw [leaveTo_eq]

theorem leaveTo_lines (u : UnitId) (dest : UnitState) (s : State) :
    (leaveTo u dest s).lines = (setRunCmd u false s).lines := by rw [leaveTo_eq]

theorem leaveTo_inbox (u : UnitId) (dest : UnitState) (s : State) : (leaveTo u dest s).inbox =
    if (s.compressor.unit u).state = .running then { s.inbox with notices := s.inbox.notices ++
      [{ entered := false, cRun := cRun { s with compressor := leftUnits u dest s } }] }
    else s.inbox := by rw [leaveTo_eq]

theorem unit_setUnit_same (c : Compressor) (u : UnitId) (r : UnitRec) : (c.setUnit u r).unit u = r := by
  cases u <;> rfl

theorem unit_setUnit_before_other (c : Compressor) (u : UnitId) (r : UnitRec) :
    (c.setUnit (otherUnit u) r).unit u = c.unit u := by cases u <;> rfl

theorem leftUnits_unit (u : UnitId) (dest : UnitState) (s : State) :
    (leftUnits u dest s).unit u = leftRec u dest s := by
  unfold leftUnits
  rw [unit_setUnit_before_other, unit_setUnit_same]

theorem leftUnits_other (u : UnitId) (dest : UnitState) (s : State) :
    (leftUnits u dest s).unit (otherUnit u) = (if (s.compressor.unit u).state = .running
      then { s.compressor.unit (otherUnit u) with lag := false }
      else s.compressor.unit (otherUnit u)) := by
  unfold leftUnits
  rw [unit_setUnit_same]

/-! ### Requests (R83, R84, R86) -/

theorem eligible_iff (s : State) (u : UnitId) : eligible s u = true ↔
    (s.compressor.unit u).state = .off ∧ (s.compressor.unit u).minStopMark = true ∧
      s.level (faultRole u) = false := by
  simp only [eligible, Bool.and_eq_true, decide_eq_true_eq, Bool.not_eq_true', and_assoc]
  rfl

/-- A unit that has been asked to start (R83). -/
def askedToStart (u : UnitId) (s : State) : State :=
  setRunCmd u true (s.setUnit u { s.unit u with
    state := .starting, stateTimer := .running (s.cfg.compressor.startTimeout * 1000) })

theorem startRequest_released {u : UnitId} {s : State} (h : s.level (runFbRole u) = false) :
    startRequest u s = askedToStart u s := by
  have h' : (askedToStart u s).level (runFbRole u) = false := h
  show (if (askedToStart u s).level (runFbRole u) = true then _ else askedToStart u s) = _
  rw [h']
  rfl

theorem startRequest_asserted {u : UnitId} {s : State} (h : s.level (runFbRole u) = true) :
    startRequest u s = enterRunning u (askedToStart u s) := by
  have h' : (askedToStart u s).level (runFbRole u) = true := h
  exact if_pos h'

theorem stopRequest_eq (u : UnitId) (s : State) : stopRequest u s =
    if (s.compressor.unit u).state = .starting then leaveTo u .off s
    else if (s.compressor.unit u).state = .running then leaveTo u .cooldown s
    else s := by
  unfold stopRequest State.unit
  cases (s.compressor.unit u).state <;> rfl

/-! ### Lead choice (R96) -/

theorem unitsThat_eq_zero_iff (c : Compressor) (f : UnitState → Bool) :
    unitsThat c f = 0 ↔ f c.u1.state = false ∧ f c.u2.state = false := by
  simp [unitsThat]

@[simp] theorem choose_neither (c : Compressor) : choose c false false = none := rfl
@[simp] theorem choose_both (c : Compressor) : choose c true true =
    if c.u2.runSeconds < c.u1.runSeconds then some .two else some .one := rfl

/-- A unit that lead choice may start (R96). -/
def readyToLead (s : State) (u : UnitId) : Bool :=
  eligible s u && !(s.compressor.unit u).passedOver

theorem readyToLead_iff (s : State) (u : UnitId) :
    readyToLead s u = true ↔ eligible s u = true ∧ (s.compressor.unit u).passedOver = false := by
  simp [readyToLead]

theorem leadChoice_open {s : State} (hl : s.compressor.lineup = true)
    (h1 : onDuty s.compressor.u1.state = false) (h2 : onDuty s.compressor.u2.state = false) :
    leadChoice s =
      onChosen startRequest (choose s.compressor (readyToLead s .one) (readyToLead s .two)) s :=
  if_pos ⟨hl, (unitsThat_eq_zero_iff _ _).2 ⟨h1, h2⟩⟩

theorem leadChoice_closed {s : State} (h : s.compressor.lineup = false ∨
    onDuty s.compressor.u1.state = true ∨ onDuty s.compressor.u2.state = true) : leadChoice s = s := by
  refine if_neg fun ⟨hl, hz⟩ => ?_
  obtain ⟨h1, h2⟩ := (unitsThat_eq_zero_iff _ _).1 hz
  obtain h | h | h := h
  · rw [h] at hl; cases hl
  · rw [h] at h1; cases h1
  · rw [h] at h2; cases h2

/-- Settles O27: each function by its own lemma; the frames are those of the train's judgements. -/
theorem unitChangesAndTrainRequests : Obligations.UnitChangesAndTrainRequests := by
  refine ⟨enterRunning_eq, ?leaves, ?eligible, ?starts, stopRequest_eq, ?leads,
    fun s => leadChoice_closed, fun s h => if_neg h, fun _ => rfl,
    fun s => ⟨judgeTrain_keeps s, judgeDuty_keeps s⟩⟩
  case leaves =>
    intro u dest s t r o
    have hc : t.compressor = leftUnits u dest s := leaveTo_compressor u dest s
    have hl : t.lines = (setRunCmd u false s).lines := leaveTo_lines u dest s
    refine ⟨?_, ?_, ?_, ?_, ?_, leaveTo_keeps u dest s⟩
    · rw [hc]
      exact leftUnits_unit u dest s
    · rw [hc]
      exact leftUnits_other u dest s
    · rw [hc, leftUnits_unit, leftUnits_other]
      rfl
    · rw [hl]
      cases u <;> rfl
    · rw [hc]
      exact leaveTo_inbox u dest s
  case eligible =>
    intro u s
    cases u <;> exact eligible_iff s _
  case starts =>
    intro u s
    have released := @startRequest_released u s
    have asserted := @startRequest_asserted u s
    cases u <;> exact ⟨released, asserted⟩
  case leads =>
    intro s hl h1 h2 ready
    have lead := leadChoice_open hl h1 h2
    have yes {u : UnitId} (h : ready u) : readyToLead s u = true := (readyToLead_iff s u).2 h
    have no {u : UnitId} (h : ¬ready u) : readyToLead s u = false := by
      simpa using fun k => h ((readyToLead_iff s u).1 k)
    refine ⟨fun k1 k2 => ?_, fun k1 k2 => ?_, fun k2 k1 => ?_, fun k1 k2 => ?_⟩
    · rw [lead, no k1, no k2]
      rfl
    · rw [lead, yes k1, no k2]
      rfl
    · rw [lead, no k1, yes k2]
      rfl
    · rw [lead, yes k1, yes k2, choose_both]
      split <;> rfl

end Sys2Proof.Machine
end

section
/-! The Compressor Duty Unit's commands: its timers, the start timeout and CLEAR_UNIT, feedbacks and faults,
changes of the direction state (R84 to R91, R95, R100). -/

namespace Sys2Proof.Machine

/-! ### Timers (R84, R85, R88, R89, R97) -/

section Timers

variable {u : UnitId} {s : State}

theorem runClock_running (ha : s.active = true) (ht : (s.compressor.unit u).runClock ≠ .stopped) :
    runClock u s = s.setUnit u { s.unit u with runSeconds := (s.unit u).runSeconds + 1 } := by
  rw [runClock, whenActive_on s _ ha]
  exact if_pos (isRunning_of_ne ht)

theorem minRunExpiry_running (ha : s.active = true) (ht : (s.compressor.unit u).minRun ≠ .stopped) :
    minRunExpiry u s = judgeDuty (s.setUnit u { s.unit u with minRun := .stopped, minRunMark := true }) := by
  rw [minRunExpiry, whenActive_on s _ ha]
  exact if_pos (isRunning_of_ne ht)

/-- The unit that the mark makes eligible is OFF with its fault input released (R83, R89). -/
theorem minStopExpiry_running (ha : s.active = true) (ht : (s.compressor.unit u).minStop ≠ .stopped) :
    minStopExpiry u s =
      (if (s.compressor.unit u).state = .off ∧ s.level (faultRole u) = false
        then judgeTrain (s.setUnit u { s.unit u with minStop := .stopped, minStopMark := true })
        else s.setUnit u { s.unit u with minStop := .stopped, minStopMark := true }) := by
  have hel : eligible (s.setUnit u { s.unit u with minStop := .stopped, minStopMark := true }) u = true ↔
      (s.compressor.unit u).state = .off ∧ s.level (faultRole u) = false := by
    rw [eligible_iff, show (s.setUnit u _).compressor.unit u = _ from unit_setUnit_same _ _ _]
    exact and_congr_right fun _ => (and_iff_right rfl)
  rw [minStopExpiry, whenActive_on s _ ha]
  exact (if_pos (isRunning_of_ne ht)).trans (if_congr hel rfl rfl)

theorem cooldownEnd_running (ha : s.active = true) (hs : (s.compressor.unit u).state = .cooldown)
    (ht : (s.compressor.unit u).stateTimer ≠ .stopped) :
    cooldownEnd u s = judgeTrain (s.setUnit u { s.unit u with state := .off, stateTimer := .stopped }) := by
  rw [cooldownEnd, whenActive_on s _ ha]
  exact if_pos ⟨hs, isRunning_of_ne ht⟩

theorem startDwellEnd_running (ha : s.active = true) (ht : s.compressor.startDwell ≠ .stopped) :
    startDwellEnd s = judgeDuty (s.withCompressor { s.compressor with
      startDwell := .stopped, startMark := true }) := by
  rw [startDwellEnd, whenActive_on s _ ha]
  exact if_pos (isRunning_of_ne ht)

theorem stopDwellEnd_running (ha : s.active = true) (ht : s.compressor.stopDwell ≠ .stopped) :
    stopDwellEnd s = judgeDuty (s.withCompressor { s.compressor with
      stopDwell := .stopped, stopMark := true }) := by
  rw [stopDwellEnd, whenActive_on s _ ha]
  exact if_pos (isRunning_of_ne ht)

theorem startTimeout_starting (ha : s.active = true) (hs : (s.compressor.unit u).state = .starting)
    (ht : (s.compressor.unit u).stateTimer ≠ .stopped) :
    let n := (s.unit u).fails + 1
    let p := post .unitStartFail (unitNumber u) (s.setUnit u { s.unit u with fails := n })
    startTimeout u s =
      (if n < 2 then judgeTrain (leaveTo u .off p)
      else judgeTrain (post .unitLockout (unitNumber u + 256) (leaveTo u .lockout p))) := by
  rw [startTimeout, whenActive_on s _ ha]
  exact (if_pos ⟨hs, isRunning_of_ne ht⟩).trans (apply_ite judgeTrain _ _ _)

end Timers

/-! ### CLEAR_UNIT (R90) -/

theorem takeClearUnit_frame {u : UnitId} {f : RxFrame} {rest : List RxFrame} {s : State}
    (ha : s.active = true) (hf : takeFrame .compressorDuty s.link.buffers = some (f, rest))
    (hb : f.body = .clear (.unit u)) :
    takeClearUnit s = clearUnitBy u (s.withLink { s.link with buffers := rest }) :=
  takeBy_some _ s _ f rest (clearUnitBy u) ha hf (by rw [hb])

/-- Settles O26: each timer, the start timeout and CLEAR_UNIT by its own lemma. -/
theorem unitTimersTimeoutAndClear : Obligations.UnitTimersTimeoutAndClear := by
  refine ⟨fun u s ha => ⟨fun ht => ?_, fun ht => ?_, fun ht => ?_, fun hs ht => ?_, fun ht => ?_,
    fun ht => ?_⟩, fun u s ha hs ht => ?_, fun u f rest s ha hf hb => ?_⟩
  · exact congrArg Host.Outcome.next (runClock_running ha ht)
  · exact congrArg Host.Outcome.next (minRunExpiry_running ha ht)
  · exact congrArg Host.Outcome.next (minStopExpiry_running ha ht)
  · exact congrArg Host.Outcome.next (cooldownEnd_running ha hs ht)
  · exact congrArg Host.Outcome.next (startDwellEnd_running ha ht)
  · exact congrArg Host.Outcome.next (stopDwellEnd_running ha ht)
  · exact congrArg Host.Outcome.next (startTimeout_starting ha hs ht)
  · exact congrArg Host.Outcome.next (takeClearUnit_frame ha hf hb)

/-! ### Feedbacks and faults (R84, R87, R91) -/

theorem onDuty_iff (st : UnitState) : onDuty st = true ↔ st = .starting ∨ st = .running := by
  simp [onDuty]

theorem offAndRested_iff (s : State) (u : UnitId) : offAndRested s u = true ↔
    (s.compressor.unit u).state = .off ∧ (s.compressor.unit u).minStopMark = true := by
  simp only [offAndRested, Bool.and_eq_true, decide_eq_true_eq]
  rfl

theorem judgeTrain_tripUnit (u : UnitId) (cause : Nat) (s : State) :
    let p := post .unitTrip (unitNumber u + 256 * cause) s
    judgeTrain (tripUnit u cause s) =
      (if s.cfg.compressor.faultMode = .latched then
        judgeTrain (post .unitLockout (unitNumber u + 512) (leaveTo u .lockout p))
      else judgeTrain (leaveTo u .off p)) := by
  simp only [tripUnit]
  cases s.cfg.compressor.faultMode <;> rfl

/-- Settles O28: the change is taken (`takeLine_some`) and acts by the unit's state. -/
theorem feedbacksAndFaultsActByUnitState : Obligations.FeedbacksAndFaultsActByUnitState := by
  intro u rest s ha st taken rested tripped
  have trip (cause : Nat) : judgeTrain (tripUnit u cause taken) = tripped cause :=
    judgeTrain_tripUnit u cause taken
  have onDuty_taken : onDuty (taken.unit u).state = true ↔ st = .starting ∨ st = .running := onDuty_iff st
  have rested_taken : offAndRested taken u = true ↔ st = .off ∧ rested = true := offAndRested_iff taken u
  refine ⟨fun h => ?_, fun h => ?_, fun h => ?_, fun h => ?_⟩
  · exact congrArg Host.Outcome.next (takeLine_some _ _ s _ rest ha h)
  · exact congrArg Host.Outcome.next ((takeLine_some _ _ s _ rest ha h).trans
      (if_congr Iff.rfl (trip 1) rfl))
  · exact congrArg Host.Outcome.next ((takeLine_some _ _ s _ rest ha h).trans
      (if_congr onDuty_taken (trip 2) (if_congr rested_taken rfl rfl)))
  · exact congrArg Host.Outcome.next ((takeLine_some _ _ s _ rest ha h).trans
      (if_congr rested_taken rfl rfl))

/-! ### Changes of the direction state (R95, R100) -/

theorem trainDirectionChange_waiting {st : DirState} {f : Flow} {rest : List (DirState × Flow)} {s : State}
    (ha : s.active = true) (hd : s.inbox.dirChanges = (st, f) :: rest) :
    trainDirectionChange s = takeDirChange st (s.withInbox { s.inbox with dirChanges := rest }) := by
  rw [trainDirectionChange, whenActive_on s _ ha, hd]

theorem dropLineup_inactive {s : State} (h : s.compressor.lineup = false) :
    dropLineup s = stopDwells s := by
  rw [dropLineup, h]
  rfl

theorem dropLineup_active {s : State} (h : s.compressor.lineup = true) : dropLineup s =
    stopDwells (stopIfStarting .two (stopIfStarting .one (endLineup s))) := by
  rw [dropLineup, if_pos h]

/-- Settles O29: the change is taken (`trainDirectionChange_waiting`), and `takeDirChange` acts by the
state. -/
theorem trainFollowsTheDirectionState : Obligations.TrainFollowsTheDirectionState := by
  intro st f rest s ha hd c0 ended taken
  have run : exec .trainDirectionChange s = .next (takeDirChange st _) :=
    congrArg Host.Outcome.next (trainDirectionChange_waiting ha hd)
  rw [run]
  refine ⟨fun h => ?_, fun h => ?_, fun h => ?_, fun h hl => ?_, fun h hl => ?_⟩
  · subst h
    rfl
  · subst h
    rfl
  · obtain rfl | rfl := h <;> rfl
  · have drop : dropLineup taken = stopDwells taken := dropLineup_inactive hl
    rw [← drop]
    obtain rfl | rfl | rfl := h <;> rfl
  · have drop : dropLineup taken = stopDwells (stopIfStarting .two (stopIfStarting .one ended)) :=
      dropLineup_active hl
    rw [← drop]
    obtain rfl | rfl | rfl := h <;> rfl

end Sys2Proof.Machine
end

section
/-! What one judgement of the second-unit start and the lag stop makes, and how INJECT repeats it (R97 to
R99). -/

namespace Sys2Proof.Machine

section Judgement

variable {s : State}

/-! ### The start that is made (R98) -/

/-- A unit is STARTING, or none is eligible. -/
def NoStart (s : State) : Prop :=
  s.compressor.u1.state = .starting ∨ s.compressor.u2.state = .starting ∨
    (eligible s .one = false ∧ eligible s .two = false)

theorem secondStart_eq_none (h : NoStart s) : secondStart s = none := by
  unfold secondStart
  split
  · next hz =>
    obtain ⟨h1, h2⟩ := (unitsThat_eq_zero_iff _ _).1 hz
    obtain h | h | ⟨he1, he2⟩ := h
    · exact absurd h (of_decide_eq_false h1)
    · exact absurd h (of_decide_eq_false h2)
    · rw [he1, he2, choose_neither]
  · rfl

theorem startMade_eq_none (h : startDue s = false ∨ NoStart s) : startMade s = none := by
  unfold startMade
  obtain h | h := h
  · rw [h]
    rfl
  · rw [secondStart_eq_none h, ite_self]

/-- Of two eligible units the one with fewer run seconds, unit 1 on a tie (R98). -/
theorem choose_eligible {u : UnitId} (he : eligible s u = true)
    (hb : eligible s (otherUnit u) = false ∨
      (s.compressor.unit u).runSeconds < (s.compressor.unit (otherUnit u)).runSeconds ∨
      (u = .one ∧ (s.compressor.unit u).runSeconds = (s.compressor.unit (otherUnit u)).runSeconds)) :
    choose s.compressor (eligible s .one) (eligible s .two) = some u := by
  cases u with
  | one =>
    rw [he]
    cases ho : eligible s .two with
    | false => rfl
    | true =>
      rw [choose_both]
      refine if_neg (not_lt.2 ?_)
      obtain h | h | h := hb
      · rw [show eligible s (otherUnit .one) = true from ho] at h
        cases h
      · exact h.le
      · exact h.2.le
  | two =>
    rw [he]
    cases ho : eligible s .one with
    | false => rfl
    | true =>
      rw [choose_both]
      refine if_pos ?_
      obtain h | h | h := hb
      · rw [show eligible s (otherUnit .two) = true from ho] at h
        cases h
      · exact h
      · cases h.1

theorem startMade_eq_some {u : UnitId} (hd : startDue s = true) (h1 : s.compressor.u1.state ≠ .starting)
    (h2 : s.compressor.u2.state ≠ .starting)
    (hu : choose s.compressor (eligible s .one) (eligible s .two) = some u) : startMade s = some u := by
  unfold startMade secondStart
  rw [if_pos hd, if_pos ((unitsThat_eq_zero_iff _ _).2 ⟨decide_eq_false h1, decide_eq_false h2⟩), hu]

/-! ### The lag stop that is made (R99) -/

/-- No lag unit has its minimum run mark set. -/
def NoStop (s : State) : Prop :=
  ∀ u, (s.compressor.unit u).lag = true → (s.compressor.unit u).minRunMark = false

theorem lagUnit_lag {c : Compressor} {u : UnitId} (h : lagUnit c = some u) : (c.unit u).lag = true := by
  unfold lagUnit at h
  split at h
  · next h1 => cases h; exact h1
  · split at h
    · next h2 => cases h; exact h2
    · cases h

theorem lagUnit_eq_some {c : Compressor} {u : UnitId} (h : (c.unit u).lag = true)
    (ho : (c.unit (otherUnit u)).lag = false) : lagUnit c = some u := by
  cases u with
  | one => exact if_pos h
  | two =>
    have h1 : c.u1.lag = false := ho
    have h2 : c.u2.lag = true := h
    rw [lagUnit, h1, h2]
    rfl

theorem lagStop_eq_none (h : NoStop s) : lagStop s = none := by
  unfold lagStop
  cases hl : lagUnit s.compressor with
  | none => rfl
  | some u =>
    have hm : (s.unit u).minRunMark = false := h u (lagUnit_lag hl)
    show (if (s.unit u).minRunMark = true then some u else none) = none
    rw [hm]
    rfl

theorem stopMade_eq_none (h : stopDue s = false ∨ NoStop s) : stopMade s = none := by
  unfold stopMade
  obtain h | h := h
  · rw [h]
    rfl
  · rw [lagStop_eq_none h, ite_self]

theorem stopMade_eq_some {u : UnitId} (hd : stopDue s = true) (hl : (s.compressor.unit u).lag = true)
    (ho : (s.compressor.unit (otherUnit u)).lag = false)
    (hm : (s.compressor.unit u).minRunMark = true) : stopMade s = some u := by
  unfold stopMade lagStop
  rw [if_pos hd, lagUnit_eq_some hl ho]
  exact if_pos hm

/-- A lag stop is due only with both units RUNNING (R99). -/
theorem running_of_stopDue (h : stopDue s = true) (u : UnitId) :
    (s.compressor.unit u).state = .running := by
  obtain ⟨hc, -⟩ := Bool.and_eq_true_iff.1 h
  obtain ⟨h1, h2, -⟩ := of_decide_eq_true hc
  cases u with
  | one => exact h1
  | two => exact h2

/-- Where a unit is eligible no lag stop is due. -/
theorem stopDue_of_eligible {u : UnitId} (h : eligible s u = true) : stopDue s = false := by
  by_contra k
  have hr := running_of_stopDue (by simpa using k) u
  rw [((eligible_iff s u).1 h).1] at hr
  cases hr

/-! ### One judgement, and its repetition (R97; log 20) -/

theorem judgeOnce_none (hstart : startMade s = none) (hstop : stopMade s = none) :
    judgeOnce s = judgedWith (startDue s) (stopDue s) s := by
  rw [judgeOnce_eq, hstart, hstop]
  simp [onChosen]

theorem judgeOnce_start {u : UnitId} (hstart : startMade s = some u) (hstop : stopMade s = none) :
    judgeOnce s = startRequest u (judgedWith false (stopDue s) s) := by
  rw [judgeOnce_eq, hstart, hstop]
  simp [onChosen]

theorem judgeOnce_stop {u : UnitId} (hstart : startMade s = none) (hstop : stopMade s = some u) :
    judgeOnce s = stopRequest u (judgedWith (startDue s) false s) := by
  rw [judgeOnce_eq, hstart, hstop]
  simp [onChosen]

/-- A RUNNING unit asked to stop cools down, the dwells aside (R86). -/
theorem stopRequest_judgedWith {u : UnitId} {a b : Bool} (h : (s.compressor.unit u).state = .running) :
    stopRequest u (judgedWith a b s) = leaveTo u .cooldown (judgedWith a b s) := by
  have hr : ((judgedWith a b s).compressor.unit u).state = .running := by
    cases u <;> exact h
  rw [stopRequest_eq, hr]
  rfl

theorem judgeDuty_inject (h : s.compressor.trainDir = .inject) :
    let t := judgeOnce s
    judgeDuty s =
      if t.compressor.u1.state = s.compressor.u1.state ∧ t.compressor.u2.state = s.compressor.u2.state
      then t else judgeOnce t := by
  rw [judgeDuty, if_pos h]
  exact if_congr Prod.mk_inj rfl rfl

end Judgement

/-- Settles O30: the judgement by the start and the lag stop that it makes (`judgeOnce_none`,
`judgeOnce_start`, `judgeOnce_stop`), and its repetition (`judgeDuty_inject`). -/
theorem dwellsFollowTheStartAndStopConditions : Obligations.DwellsFollowTheStartAndStopConditions := by
  refine ⟨fun s => ⟨fun hstart hstop => ?none, fun u hd h1 h2 he hb => ?start,
    fun u hstart hd hl ho hm => ?stop⟩, fun s => judgeDuty_inject⟩
  case none => exact judgeOnce_none (startMade_eq_none hstart) (stopMade_eq_none hstop)
  case start =>
    exact judgeOnce_start (startMade_eq_some hd h1 h2 (choose_eligible he hb))
      (stopMade_eq_none (.inl (stopDue_of_eligible he)))
  case stop =>
    exact (judgeOnce_stop (startMade_eq_none hstart) (stopMade_eq_some hd hl ho hm)).trans
      (stopRequest_judgedWith (running_of_stopDue hd u))

end Sys2Proof.Machine
end

section
/-! The Dryer Unit's shared acts where one tower is ON_LINE: its record and requests set in one act (R105),
the switch (R107, R108), the heater hand-over (R109) and the loading (R106). -/

namespace Sys2Proof.Machine

/-! ### Setting the record and the requests (R105) -/

theorem forall_tower {p : Tower → Prop} {x : Tower} (hx : p x) (hother : p (otherTower x)) (t : Tower) :
    p t := by
  cases x <;> cases t <;> assumption

/-- The tower commands with `x` off line and the other tower ON_LINE. -/
theorem putDryer_offLine {d : Dryer} {x : Tower} (s : State)
    (hon : (d.tower (otherTower x)).state = .onLine) (hx : (d.tower x).state ≠ .onLine) :
    putDryer d s = { s with
      dryer := d
      lines := { s.lines with requests := { s.lines.requests with
        twrA := decide (x = .b), twrB := decide (x = .a), heater := d.heater.isSome } } } := by
  have commands : d.a.state = .onLine ↔ x = .b := by
    cases x with
    | a => exact iff_of_false hx (by decide)
    | b => exact iff_of_true hon rfl
  have commands' : d.b.state = .onLine ↔ x = .a := by
    cases x with
    | a => exact iff_of_true hon rfl
    | b => exact iff_of_false hx (by decide)
  show (s.withDryer d).withLines { s.lines with requests := dryerRequests d s.lines.requests } = _
  simp only [dryerRequests, commands, commands']
  rfl

/-- The tower that is not ON_LINE gets a new record, and the heater its owner. -/
theorem putDryer_setTower {s : State} {x : Tower} {r : TowerRec} {h : Option Tower}
    (hon : (s.dryer.tower (otherTower x)).state = .onLine) (hr : r.state ≠ .onLine) :
    putDryer { s.dryer.setTower x r with heater := h } s = { s with
      dryer := { s.dryer.setTower x r with heater := h }
      lines := { s.lines with requests := { s.lines.requests with
        twrA := decide (x = .b), twrB := decide (x = .a), heater := h.isSome } } } := by
  refine putDryer_offLine s ?_ ?_
  · rw [tower_withHeater, tower_setTower_other]
    exact hon
  · rw [tower_withHeater, tower_setTower_same]
    exact hr

theorem setTower_eq_withHeater (d : Dryer) (x : Tower) (r : TowerRec) :
    d.setTower x r = { d.setTower x r with heater := d.heater } := by
  cases x <;> rfl

theorem setTower_setTower (d : Dryer) (x : Tower) (r r' : TowerRec) :
    (d.setTower x r).setTower x r' = d.setTower x r' := by
  cases x <;> rfl

/-- The same where the heater keeps its owner. -/
theorem putDryer_setTower_sameHeater {s : State} {x : Tower} {r : TowerRec}
    (hon : (s.dryer.tower (otherTower x)).state = .onLine) (hr : r.state ≠ .onLine) :
    putDryer (s.dryer.setTower x r) s = { s with
      dryer := s.dryer.setTower x r
      lines := { s.lines with requests := { s.lines.requests with
        twrA := decide (x = .b), twrB := decide (x = .a), heater := s.dryer.heater.isSome } } } := by
  rw [setTower_eq_withHeater]
  exact putDryer_setTower hon hr

/-- The same where the heater is free. -/
theorem putDryer_setTower_freeHeater {s : State} {x : Tower} {r : TowerRec}
    (hon : (s.dryer.tower (otherTower x)).state = .onLine) (hr : r.state ≠ .onLine)
    (hfree : s.dryer.heater = none) :
    putDryer (s.dryer.setTower x r) s = { s with
      dryer := s.dryer.setTower x r
      lines := { s.lines with requests := { s.lines.requests with
        twrA := decide (x = .b), twrB := decide (x = .a), heater := false } } } := by
  rw [putDryer_setTower_sameHeater hon hr, hfree]
  rfl

@[simp] theorem putDryer_dryer (d : Dryer) (s : State) : (putDryer d s).dryer = d := rfl

/-- Of two records put in a row the second one stands. -/
theorem putDryer_putDryer (d e : Dryer) (s : State) : putDryer d (putDryer e s) = putDryer d s := rfl

/-! ### The switch (R107, R108) -/

theorem loadDue_of_onLine (c : DryerCfg) {d : Dryer} {x : Tower} (h : onLineTower d = x) :
    loadDue c d = decide ((15 * c.lmax * 1000 : Nat) ≤ 16 * (d.tower x).load) := by
  rw [loadDue, onLineRec, h]

theorem offLineRec_of_onLine {d : Dryer} {x : Tower} (h : onLineTower d = x) :
    offLineRec d = d.tower (otherTower x) := by
  rw [offLineRec, h]

theorem switchDue_iff (c : DryerCfg) (d : Dryer) :
    switchDue c d = true ↔ loadDue c d = true ∨ d.offSpec = true :=
  Bool.or_eq_true_iff

/-- The old tower heats and the new one is empty: the two records are set in either order. -/
theorem switched_of_onLine (c : DryerCfg) {d : Dryer} {x : Tower} (h : onLineTower d = x) :
    switched c d = { (d.setTower x { d.tower x with
        state := .heating, regen := .running (c.heatTime * 60000), halfMark := false }).setTower
          (otherTower x) { d.tower (otherTower x) with
            state := .onLine, load := 0, residue := 0, regen := .stopped } with heater := some x } := by
  rw [switched, h]
  cases x <;> rfl

/-- The towers after a switch, with the requests that they call for. -/
theorem putDryer_switched {s : State} {x : Tower} (h : onLineTower s.dryer = x) :
    putDryer (switched s.cfg.dryer s.dryer) s = { s with
      dryer := switched s.cfg.dryer s.dryer
      lines := { s.lines with requests := { s.lines.requests with
        twrA := decide (otherTower x = .a), twrB := decide (otherTower x = .b), heater := true } } } := by
  rw [switched_of_onLine _ h]
  cases x <;> rfl

theorem judgeSwitch_made {s : State} (hrun : s.startup.station = .running)
    (hdue : switchDue s.cfg.dryer s.dryer = true) (hready : (offLineRec s.dryer).state = .standby) :
    judgeSwitch s = post .towerSwitch
      (towerNumber (otherTower (onLineTower s.dryer)) + 256 * switchCause s.cfg.dryer s.dryer)
      (putDryer (switched s.cfg.dryer s.dryer) s) :=
  if_pos ⟨hrun, hdue, hready⟩

theorem judgeSwitch_waits {s : State} (h : s.startup.station ≠ .running ∨
    switchDue s.cfg.dryer s.dryer ≠ true ∨ (offLineRec s.dryer).state ≠ .standby) :
    judgeSwitch s = s := by
  refine if_neg fun ⟨hrun, hdue, hready⟩ => ?_
  obtain h | h | h := h
  · exact h hrun
  · exact h hdue
  · exact h hready

/-! ### The heater hand-over (R109) -/

theorem heldTower_eq_none {d : Dryer} (h : ∀ t, (d.tower t).state ≠ .hold) : heldTower d = none := by
  cases ht : heldTower d with
  | none => rfl
  | some t => exact absurd (heldTower_hold ht) (h t)

theorem heldTower_eq_some {d : Dryer} {x : Tower} (hx : (d.tower x).state = .hold)
    (hother : (d.tower (otherTower x)).state ≠ .hold) : heldTower d = some x := by
  cases x with
  | a => exact if_pos hx
  | b => exact (if_neg hother).trans (if_pos hx)

theorem handOver_held {s : State} {x : Tower} (hrun : s.startup.station = .running)
    (hfree : s.dryer.heater = none) (hx : heldTower s.dryer = some x) :
    handOver s = putDryer (startHeating s.cfg.dryer.heatTime x s.dryer) s := by
  rw [handOver, if_pos ⟨hrun, hfree⟩, hx]

theorem handOver_idle {s : State} (h : s.startup.station ≠ .running ∨ s.dryer.heater ≠ none ∨
    ∀ t, (s.dryer.tower t).state ≠ .hold) : handOver s = s := by
  rw [handOver]
  obtain h | h | h := h
  · exact if_neg fun ⟨hrun, _⟩ => h hrun
  · exact if_neg fun ⟨_, hfree⟩ => h hfree
  · rw [heldTower_eq_none h]
    exact ite_self s

/-- Settles O32: `judgeSwitch_made` and `handOver_held` with the records and requests they put, and else
`judgeSwitch_waits` and `handOver_idle`. -/
theorem switchAndHandOver : Obligations.SwitchAndHandOver := by
  refine ⟨fun old new s hnew hrun hold hready => ?made, fun x s h => ?waits,
    fun x s hrun hfree hon hx => ?held, fun s h => ?idle⟩
  case made =>
    intro load hdue
    subst hnew
    have h : onLineTower s.dryer = old := onLineTower_of_onLine hold (by simp [hready])
    have hload : loadDue s.cfg.dryer s.dryer = load := loadDue_of_onLine _ h
    rw [judgeSwitch_made hrun ((switchDue_iff _ _).2 (hload ▸ hdue)) (offLineRec_of_onLine h ▸ hready),
      putDryer_switched h, switched_of_onLine _ h, switchCause, hload, h]
  case waits =>
    refine judgeSwitch_waits (h.imp_right fun ⟨hx, hother, hwait⟩ => ?_)
    have hon : onLineTower s.dryer = x := onLineTower_of_onLine hx hother
    rw [ne_eq, switchDue_iff, loadDue_of_onLine _ hon, offLineRec_of_onLine hon, decide_eq_true_iff]
    refine hwait.symm.imp_left fun ⟨hload, hspec⟩ => ?_
    rintro (hdue | hdue)
    · exact not_le.2 hload hdue
    · simp [hspec] at hdue
  case held =>
    rw [handOver_held hrun hfree (heldTower_eq_some hx (by simp [hon]))]
    exact putDryer_setTower hon (by simp)
  case idle =>
    exact handOver_idle (h.imp_right (.imp_right fun ⟨ha, hb⟩ => forall_tower (x := .a) ha hb))

/-! ### Loading (R106) -/

theorem loads_iff (st : DirState) (f : Flow) :
    loads st f = true ↔ st = .withdraw ∨ (st = .rundown ∧ f = .wd) :=
  decide_eq_true_iff

theorem takeDryerIncrement_waiting {s : State} {v : Int} {rest : List Int} (ha : s.active = true)
    (hv : s.inbox.dryerIncrements = v :: rest) :
    takeDryerIncrement s =
      (if loads s.direction.state s.direction.remembered = true then
        judgeSwitch ((s.withInbox { s.inbox with dryerIncrements := rest }).withDryer
          (s.dryer.setTower (onLineTower s.dryer) (loadTower v.natAbs
            (curveAt s.cfg.curves.water (s.qty .wellT).value) (onLineRec s.dryer))))
      else s.withInbox { s.inbox with dryerIncrements := rest }) := by
  rw [takeDryerIncrement, whenActive_on s _ ha, hv]

/-- Settles O31: the increment is taken (`takeDryerIncrement_waiting`), and loaded by the direction state
(`loads_iff`) onto the tower that is ON_LINE. -/
theorem incrementLoadsTheOnLineTower : Obligations.IncrementLoadsTheOnLineTower := by
  intro x v rest s ha hv hx hother loading w r taken
  have run : exec .dryerIncrementTake s = .next _ :=
    congrArg Host.Outcome.next (takeDryerIncrement_waiting ha hv)
  rw [run]
  refine ⟨fun h => ?rest, fun h => ?loaded⟩
  case rest =>
    rw [if_neg (mt (loads_iff _ _).1 h)]
    rfl
  case loaded =>
    rw [if_pos ((loads_iff _ _).2 h), onLineRec, onLineTower_of_onLine hx hother]
    rfl

end Sys2Proof.Machine
end

section
/-! The regeneration of the tower that is not on line (R110 to R112), CLEAR_TOWER (R113) and the Dryer Unit's
entry to RUNNING (R120). -/

namespace Sys2Proof.Machine

section Regeneration

variable {x : Tower} {s : State}

/-! ### Half-heat point (R110) -/

theorem halfHeatCause_eq_none (h : s.cfg.slots.regenT.fitted = false ∨
    ∃ v, s.usable .regenT = some v ∧ (s.cfg.dryer.regenTarget : Int) ≤ v) : halfHeatCause s = none := by
  unfold halfHeatCause
  obtain h | ⟨v, hv, htarget⟩ := h
  · exact if_neg (by simp [h])
  · rw [hv]
    simp only [if_neg (not_lt.2 htarget), ite_self]

theorem halfHeatCause_eq_some {cause : Nat} (hfit : s.cfg.slots.regenT.fitted = true)
    (h : (s.usable .regenT = none ∧ cause = 1) ∨
      (∃ v, s.usable .regenT = some v ∧ v < (s.cfg.dryer.regenTarget : Int) ∧ cause = 2)) :
    halfHeatCause s = some cause := by
  rw [halfHeatCause, if_pos hfit]
  obtain ⟨hv, rfl⟩ | ⟨v, hv, hlow, rfl⟩ := h
  · rw [hv]
  · rw [hv]
    exact if_pos hlow

/-- The check is made once: the mark is set, and the tower then heats on or is FAULTED. -/
theorem halfHeat_heating (ha : s.active = true) (hs : (s.dryer.tower x).state = .heating)
    (ht : (s.dryer.tower x).regen ≠ .stopped) (hm : (s.dryer.tower x).halfMark = false) :
    halfHeat x s =
      let marked := putDryer (s.dryer.setTower x { s.dryer.tower x with halfMark := true }) s
      (halfHeatCause s).elim marked fun cause => faultTower x cause marked := by
  rw [halfHeat, whenActive_on s _ ha]
  refine (if_pos ⟨hs, isRunning_of_ne ht, hm⟩).trans ?_
  cases halfHeatCause s <;> rfl

theorem halfHeat_marked (ha : s.active = true) (hm : (s.dryer.tower x).halfMark = true) :
    halfHeat x s = s := by
  rw [halfHeat, whenActive_on s _ ha]
  exact if_neg fun ⟨_, _, hclear⟩ => absurd (hm.symm.trans hclear) (by decide)

/-- No tower waits in HOLD for the heater while one is ON_LINE and the other is in `r`. -/
theorem not_hold_setTower {d : Dryer} {r : TowerRec} (h : Option Tower)
    (hon : (d.tower (otherTower x)).state = .onLine) (hr : r.state ≠ .hold) (t : Tower) :
    (({ d.setTower x r with heater := h } : Dryer).tower t).state ≠ .hold := by
  rw [tower_withHeater]
  refine forall_tower (p := fun t => ((d.setTower x r).tower t).state ≠ .hold) (x := x) ?_ ?_ t
  · rwa [tower_setTower_same]
  · rw [tower_setTower_other, hon]
    decide

/-- A FAULTED tower frees the heater, and no tower waits for it. -/
theorem faultTower_offLine (cause : Nat) (hon : (s.dryer.tower (otherTower x)).state = .onLine) :
    faultTower x cause s = post .towerFault (towerNumber x + 256 * cause)
      (putDryer { s.dryer.setTower x { s.dryer.tower x with state := .faulted, regen := .stopped } with
        heater := none } s) := by
  refine handOver_idle (.inr (.inr fun t => ?_))
  rw [post_dryer]
  exact not_hold_setTower none hon (by simp) t

theorem halfHeat_passes (ha : s.active = true) (hs : (s.dryer.tower x).state = .heating)
    (ht : (s.dryer.tower x).regen ≠ .stopped) (hm : (s.dryer.tower x).halfMark = false)
    (hpass : halfHeatCause s = none) :
    halfHeat x s = putDryer (s.dryer.setTower x { s.dryer.tower x with halfMark := true }) s := by
  rw [halfHeat_heating ha hs ht hm, hpass]
  rfl

theorem halfHeat_fails {cause : Nat} (ha : s.active = true)
    (hon : (s.dryer.tower (otherTower x)).state = .onLine) (hs : (s.dryer.tower x).state = .heating)
    (ht : (s.dryer.tower x).regen ≠ .stopped) (hm : (s.dryer.tower x).halfMark = false)
    (hfail : halfHeatCause s = some cause) :
    halfHeat x s = post .towerFault (towerNumber x + 256 * cause)
      (putDryer { s.dryer.setTower x { s.dryer.tower x with
        state := .faulted, regen := .stopped, halfMark := true } with heater := none } s) := by
  rw [halfHeat_heating ha hs ht hm, hfail]
  refine (faultTower_offLine cause ?_).trans ?_
  · rw [putDryer_dryer, tower_setTower_other]
    exact hon
  · rw [putDryer_putDryer, putDryer_dryer, setTower_setTower, tower_setTower_same]

/-! ### End of heating and of cooling (R111, R112) -/

theorem heatEnd_heating (ha : s.active = true) (hon : (s.dryer.tower (otherTower x)).state = .onLine)
    (hs : (s.dryer.tower x).state = .heating) (ht : (s.dryer.tower x).regen ≠ .stopped) :
    heatEnd x s = putDryer { s.dryer.setTower x { s.dryer.tower x with
      state := .cooling, regen := .running (s.cfg.dryer.coolTime * 60000), halfMark := false } with
      heater := none } s := by
  rw [heatEnd, whenActive_on s _ ha]
  refine (if_pos ⟨hs, isRunning_of_ne ht⟩).trans (handOver_idle (.inr (.inr fun t => ?_)))
  exact not_hold_setTower none hon (by simp) t

theorem coolEnd_cooling (ha : s.active = true) (hs : (s.dryer.tower x).state = .cooling)
    (ht : (s.dryer.tower x).regen ≠ .stopped) :
    coolEnd x s = judgeSwitch (putDryer (s.dryer.setTower x { s.dryer.tower x with
      state := .standby, load := 0, residue := 0, regen := .stopped }) s) := by
  rw [coolEnd, whenActive_on s _ ha]
  exact if_pos ⟨hs, isRunning_of_ne ht⟩

/-! ### CLEAR_TOWER (R113) and the entry to RUNNING (R120) -/

theorem takeClearTower_frame {f : RxFrame} {rest : List RxFrame} (ha : s.active = true)
    (hf : takeFrame .dryerUnit s.link.buffers = some (f, rest)) (hb : f.body = .clear (.tower x)) :
    takeClearTower s = clearTowerBy x (s.withLink { s.link with buffers := rest }) :=
  takeBy_some _ s _ f rest (clearTowerBy x) ha hf (by rw [hb])

theorem clearTowerBy_faulted (hs : (s.dryer.tower x).state = .faulted) :
    clearTowerBy x s =
      handOver (putDryer (s.dryer.setTower x { s.dryer.tower x with state := .hold }) s) :=
  if_pos hs

theorem clearTowerBy_refused (hs : (s.dryer.tower x).state ≠ .faulted) :
    clearTowerBy x s = post .clearRefused (towerNumber x + 3 + 256) s :=
  if_neg hs

theorem dryerEntry_waiting (ha : s.active = true) (hr : s.inbox.runningToDryer = true) :
    dryerEntry s = judgeSwitch (handOver (s.withInbox { s.inbox with runningToDryer := false })) := by
  rw [dryerEntry, whenActive_on s _ ha]
  exact if_pos hr

end Regeneration

/-- Settles O33: each point of the regeneration by its own lemma and what it puts (`putDryer_setTower`), then
CLEAR_TOWER and the entry. -/
theorem regenerationClearAndEntryToRunning : Obligations.RegenerationClearAndEntryToRunning := by
  refine ⟨fun x s ha hon ht => ?regeneration, fun x f rest s ha hf hb hs => ?refused,
    fun x f rest s ha hf hb hs hon hfree => ?cleared, fun s ha hr => ?entry⟩
  case regeneration =>
    intro r q
    refine ⟨fun (hs : (s.dryer.tower x).state = .heating) hm hown hpass => ?passed,
      fun cause hs hm hfit hfail => ?failed, fun _ hm => ?marked, fun hs => ?heated,
      fun hs hfree => ?cooled⟩
    case passed =>
      refine congrArg Host.Outcome.next
        ((halfHeat_passes ha hs ht hm (halfHeatCause_eq_none hpass)).trans ?_)
      rw [putDryer_setTower_sameHeater hon (by simp [hs]), hown]
      rfl
    case failed =>
      exact congrArg Host.Outcome.next
        ((halfHeat_fails ha hon hs ht hm (halfHeatCause_eq_some hfit hfail)).trans
          (congrArg (post _ _) (putDryer_setTower hon (by simp))))
    case marked => exact congrArg Host.Outcome.next (halfHeat_marked ha hm)
    case heated =>
      exact congrArg Host.Outcome.next
        ((heatEnd_heating ha hon hs ht).trans (putDryer_setTower hon (by simp)))
    case cooled =>
      exact congrArg Host.Outcome.next ((coolEnd_cooling ha hs ht).trans
        (congrArg judgeSwitch (putDryer_setTower_freeHeater hon (by simp) hfree)))
  case refused =>
    exact congrArg Host.Outcome.next ((takeClearTower_frame ha hf hb).trans (clearTowerBy_refused hs))
  case cleared =>
    have cleared := clearTowerBy_faulted (s := s.withLink { s.link with buffers := rest }) hs
    exact congrArg Host.Outcome.next ((takeClearTower_frame ha hf hb).trans
      (cleared.trans (congrArg handOver (putDryer_setTower_freeHeater hon (by simp) hfree))))
  case entry => exact congrArg Host.Outcome.next (dryerEntry_waiting ha hr)

end Sys2Proof.Machine
end

section
/-! DEW_OUT_UPDATE (R114, R115): the side of an update, and the three things that a judgement of it can do to
the off-spec flag. -/

namespace Sys2Proof.Machine

theorem takeDewUpdate_waiting {s : State} {st : QState} {v : Int} {rest : List (QState × Int)}
    (ha : s.active = true) (hd : s.inbox.dewUpdates = (st, v) :: rest) :
    takeDewUpdate s = judgeDew st v (s.withInbox { s.inbox with dewUpdates := rest }) := by
  rw [takeDewUpdate, whenActive_on s _ ha, hd]

/-! ### The side of an update -/

theorem dewSide_above {c : DryerCfg} {v : Int} (h : c.dewLimit < v) : dewSide c .good v = .above :=
  if_pos h

theorem dewSide_below {c : DryerCfg} {v : Int} (hv : v ≤ c.dewLimit)
    (h : v ≤ c.dewLimit - c.dewHysteresis) : dewSide c .good v = .below :=
  (if_neg (not_lt.2 hv)).trans (if_pos h)

theorem dewSide_band {c : DryerCfg} {v : Int} (hv : v ≤ c.dewLimit)
    (h : c.dewLimit - c.dewHysteresis < v) : dewSide c .good v = .band :=
  (if_neg (not_lt.2 hv)).trans (if_neg (not_le.2 h))

theorem dewSide_unusable {c : DryerCfg} {st : QState} {v : Int} (h : st = .none ∨ st = .failed) :
    dewSide c st v = .unusable := by
  obtain rfl | rfl := h <;> rfl

/-! ### What a judgement does to the flag -/

section Judgement

variable {st : QState} {v : Int} {s : State} {side : DewSide} {up down : Nat}

/-- The flag stays as it was. -/
theorem judgeDew_unchanged (hside : dewSide s.cfg.dryer st v = side)
    (hruns : dewRuns side s.dryer.above s.dryer.below = (up, down))
    (hflag : dewFlag side (up, down) s.dryer.offSpec = s.dryer.offSpec) :
    judgeDew st v s = s.withDryer { s.dryer with above := up, below := down } := by
  simp only [judgeDew, hside, hruns, hflag]
  exact (if_neg fun ⟨hclear, hset⟩ => absurd (hclear.symm.trans hset) (by decide)).trans
    (if_neg fun ⟨hset, hclear⟩ => absurd (hset.symm.trans hclear) (by decide))

/-- The flag is set: the switch judgement follows. -/
theorem judgeDew_sets (hside : dewSide s.cfg.dryer st v = side)
    (hruns : dewRuns side s.dryer.above s.dryer.below = (up, down)) (hspec : s.dryer.offSpec = false)
    (hflag : dewFlag side (up, down) s.dryer.offSpec = true) :
    judgeDew st v s = judgeSwitch (post .offSpecOn (offSpecDetail side)
      (s.withDryer { s.dryer with above := up, below := down, offSpec := true })) := by
  simp only [judgeDew, hside, hruns, hflag]
  exact if_pos ⟨hspec, trivial⟩

/-- The flag is cleared. -/
theorem judgeDew_clears (hside : dewSide s.cfg.dryer st v = side)
    (hruns : dewRuns side s.dryer.above s.dryer.below = (up, down)) (hspec : s.dryer.offSpec = true)
    (hflag : dewFlag side (up, down) s.dryer.offSpec = false) :
    judgeDew st v s = post .offSpecOff 0
      (s.withDryer { s.dryer with above := up, below := down, offSpec := false }) := by
  simp only [judgeDew, hside, hruns, hflag]
  exact (if_neg (by simp)).trans (if_pos ⟨hspec, trivial⟩)

/-! ### The judgement by the side (R114, R115) -/

theorem judgeDew_above (hside : dewSide s.cfg.dryer st v = .above) :
    let up := min 3 (s.dryer.above + 1)
    judgeDew st v s =
      (if up = 3 ∧ s.dryer.offSpec = false then
        judgeSwitch (post .offSpecOn 1
          (s.withDryer { s.dryer with above := up, below := 0, offSpec := true }))
      else s.withDryer { s.dryer with above := up, below := 0 }) := by
  intro up
  split
  · next h =>
    obtain ⟨hthird, hspec⟩ := h
    exact judgeDew_sets hside rfl hspec (by simpa [dewFlag, hspec] using hthird)
  · next h =>
    refine judgeDew_unchanged hside rfl ?_
    show (s.dryer.offSpec || decide (up = 3)) = s.dryer.offSpec
    rw [Bool.or_eq_left_iff_imp, decide_eq_true_iff]
    exact fun hthird => Bool.eq_true_of_not_eq_false fun hspec => h ⟨hthird, hspec⟩

theorem judgeDew_below (hside : dewSide s.cfg.dryer st v = .below) :
    let down := min 3 (s.dryer.below + 1)
    judgeDew st v s =
      (if down = 3 ∧ s.dryer.offSpec = true then
        post .offSpecOff 0 (s.withDryer { s.dryer with above := 0, below := down, offSpec := false })
      else s.withDryer { s.dryer with above := 0, below := down }) := by
  intro down
  split
  · next h =>
    obtain ⟨hthird, hspec⟩ := h
    exact judgeDew_clears hside rfl hspec (by simpa [dewFlag, hspec] using hthird)
  · next h =>
    refine judgeDew_unchanged hside rfl ?_
    show (s.dryer.offSpec && decide (down ≠ 3)) = s.dryer.offSpec
    rw [Bool.and_eq_left_iff_imp, decide_eq_true_iff]
    exact fun hspec hthird => h ⟨hthird, hspec⟩

theorem judgeDew_unusable (hside : dewSide s.cfg.dryer st v = .unusable) :
    judgeDew st v s =
      (if s.dryer.offSpec = false then
        judgeSwitch (post .offSpecOn 2
          (s.withDryer { s.dryer with above := 0, below := 0, offSpec := true }))
      else s.withDryer { s.dryer with above := 0, below := 0 }) := by
  split
  · next hspec => exact judgeDew_sets hside rfl hspec rfl
  · next hspec => exact judgeDew_unchanged hside rfl (Bool.eq_true_of_not_eq_false hspec).symm

end Judgement

/-- Settles O34: the update is taken (`takeDewUpdate_waiting`) and judged by its side; in the band and in
HELD the runs end and the flag stays (`judgeDew_unchanged`). -/
theorem dewJudgementSetsAndClearsOffSpec : Obligations.DewJudgementSetsAndClearsOffSpec := by
  intro st v rest s ha hd lim hys taken up down
  have run : exec .dewOutUpdate s = .next (judgeDew st v taken) :=
    congrArg Host.Outcome.next (takeDewUpdate_waiting ha hd)
  rw [run]
  refine ⟨fun hst hv => ?above, fun hst hv hlow => ?below, fun hst hv hband => ?band, fun hst => ?held,
    fun hst => ?unusable⟩
  case above =>
    subst hst
    exact congrArg Host.Outcome.next (judgeDew_above (dewSide_above hv))
  case below =>
    subst hst
    exact congrArg Host.Outcome.next (judgeDew_below (dewSide_below hv hlow))
  case band =>
    subst hst
    exact congrArg Host.Outcome.next (judgeDew_unchanged (dewSide_band hv hband) rfl rfl)
  case held =>
    subst hst
    exact congrArg Host.Outcome.next (judgeDew_unchanged (side := .held) rfl rfl rfl)
  case unusable => exact congrArg Host.Outcome.next (judgeDew_unusable (dewSide_unusable hst))

end Sys2Proof.Machine
end

section
/-! The stages of the share computation (R127 to R138), each as the rules give it, row by row. -/

namespace Sys2Proof.Machine

/-! ### Direction (R127) -/

section Direction

variable {deadband : Nat} {target : Int}

theorem shareDir_inj (h : (deadband : Int) ≤ target) : shareDir deadband target = .inj := if_pos h

theorem shareDir_wd (hi : ¬(deadband : Int) ≤ target) (hw : target ≤ -(deadband : Int)) :
    shareDir deadband target = .wd := (if_neg hi).trans (if_pos hw)

theorem shareDir_hold (hi : ¬(deadband : Int) ≤ target) (hw : ¬target ≤ -(deadband : Int)) :
    shareDir deadband target = .hold := (if_neg hi).trans (if_neg hw)

end Direction

/-! ### Availabilities (R128 to R131) -/

theorem offers_iff (i : ShareIn) : offers i = true ↔ i.running = true ∧ i.dirState ≠ .tripped := by
  simp [offers]

theorem shareAInj_eq (i : ShareIn) : shareAInj i =
    if i.running = true ∧ i.dirState ≠ .tripped then min i.cavernInj i.cAvail else 0 :=
  if_congr (offers_iff i) rfl rfl

theorem shareAWd_eq (i : ShareIn) : shareAWd i =
    if i.running = true ∧ i.dirState ≠ .tripped then min i.cavernWd i.dAvail else 0 :=
  if_congr (offers_iff i) rfl rfl

@[simp] theorem ownAvail_hold (i : ShareIn) : ownAvail .hold i = 0 := rfl

/-- In HOLD no peer's field is read into S (R131). -/
theorem siteAvail_hold (i : ShareIn) : siteAvail .hold i = 0 := by
  simp [siteAvail, inDir]

theorem ownAvail_le_max (d : Dir) (i : ShareIn) : ownAvail d i ≤ max (shareAInj i) (shareAWd i) := by
  cases d with
  | inj => exact le_max_left _ _
  | wd => exact le_max_right _ _
  | hold => exact Nat.zero_le _

/-! ### Base share (R132) -/

section BaseShare

variable {magnitude own site : Nat}

theorem baseShare_noSite (h : site = 0) : baseShare magnitude own site = 0 := if_pos h

theorem baseShare_whole (h : 0 < site) (hm : site ≤ magnitude) : baseShare magnitude own site = own :=
  (if_neg h.ne').trans (if_pos hm)

theorem baseShare_part (h : 0 < site) (hm : magnitude < site) :
    baseShare magnitude own site = magnitude * own / site :=
  (if_neg h.ne').trans (if_neg hm.not_ge)

/-- The part of a target below S is at most the part of S itself, which is A_own (R139). -/
theorem baseShare_le (magnitude own site : Nat) : baseShare magnitude own site ≤ own := by
  rcases Nat.eq_zero_or_pos site with h | h
  · rw [baseShare_noSite h]
    exact Nat.zero_le _
  · rcases le_or_gt site magnitude with hm | hm
    · rw [baseShare_whole h hm]
    · rw [baseShare_part h hm]
      exact Nat.div_le_of_le_mul (Nat.mul_le_mul_right own hm.le)

end BaseShare

/-! ### Trim (R133 to R137) -/

theorem trimApplies_iff (d : Dir) (st : DirState) (site : Nat) : trimApplies d st site = true ↔
    (d = .inj ∧ st = .inject ∨ d = .wd ∧ st = .withdraw) ∧ 0 < site := by
  cases d with
  | inj => simp [trimApplies, and_comm]
  | wd => simp [trimApplies, and_comm]
  | hold => simp [trimApplies]

section HeldWithin

variable {bound : Nat} {x : Int}

theorem heldWithin_above (h : (bound : Int) < x) : heldWithin bound x = bound := by
  rw [heldWithin, min_eq_left h.le, max_eq_right (by omega)]

theorem heldWithin_below (h : x < -(bound : Int)) : heldWithin bound x = -(bound : Int) := by
  rw [heldWithin, min_eq_right (by omega), max_eq_left h.le]

theorem heldWithin_inside (hl : -(bound : Int) ≤ x) (hu : x ≤ bound) : heldWithin bound x = x := by
  rw [heldWithin, min_eq_right hu, max_eq_right hl]

end HeldWithin

theorem heldWithin_ge (bound : Nat) (x : Int) : -(bound : Int) ≤ heldWithin bound x := le_max_left _ _

theorem heldWithin_le (bound : Nat) (x : Int) : heldWithin bound x ≤ bound :=
  max_le (by omega) (min_le_left _ _)

section BackCalculate

variable {own base : Nat} {q : Int}

theorem backCalculate_over (h : (own : Int) < base + q) :
    backCalculate own base q = (own, (own : Int) - base) := if_pos h

theorem backCalculate_under (h : (base : Int) + q < 0) :
    backCalculate own base q = (0, -(base : Int)) :=
  (if_neg (by omega)).trans (if_pos h)

theorem backCalculate_inside (hl : 0 ≤ (base : Int) + q) (hu : (base : Int) + q ≤ own) :
    backCalculate own base q = (((base : Int) + q).toNat, q) :=
  (if_neg hu.not_gt).trans (if_neg hl.not_gt)

end BackCalculate

/-! ### Minimum flow (R138) -/

section MinFlow

variable {fmin own p : Nat}

theorem minFlow_raised (hp : 0 < p) (hf : p < fmin) (hh : fmin ≤ 2 * p) (ho : fmin ≤ own) :
    minFlow fmin own p = fmin := (if_pos ⟨hp, hf⟩).trans (if_pos ⟨hh, ho⟩)

theorem minFlow_dropped (hp : 0 < p) (hf : p < fmin) (h : ¬(fmin ≤ 2 * p ∧ fmin ≤ own)) :
    minFlow fmin own p = 0 := (if_pos ⟨hp, hf⟩).trans (if_neg h)

theorem minFlow_unchanged (h : p = 0 ∨ fmin ≤ p) : minFlow fmin own p = p := if_neg (by omega)

/-- P is raised to Fmin only where A_own reaches it (R138, R139). -/
theorem minFlow_le (h : p ≤ own) : minFlow fmin own p ≤ own := by
  by_cases hsmall : 0 < p ∧ p < fmin
  · obtain ⟨hp, hf⟩ := hsmall
    by_cases hr : fmin ≤ 2 * p ∧ fmin ≤ own
    · obtain ⟨hh, ho⟩ := hr
      rwa [minFlow_raised hp hf hh ho]
    · rw [minFlow_dropped hp hf hr]
      exact Nat.zero_le _
  · rwa [minFlow_unchanged (by omega)]

end MinFlow

/-- Settles O37: the rows of each stage by the sections above; S in a flowing direction, Fsite and the
composition of the stages are `siteAvail`, `siteFlow` and `shareCompute` as they are written. -/
theorem shareStagesFollowTheRules : Obligations.ShareStagesFollowTheRules := by
  refine ⟨fun c i => ?run, fun m own site => ⟨baseShare_noSite, baseShare_whole, baseShare_part⟩,
    fun _ _ _ _ => rfl, fun bound x => ⟨heldWithin_above, heldWithin_below, heldWithin_inside⟩,
    fun own base q => ⟨backCalculate_over, backCalculate_under, backCalculate_inside⟩,
    fun fmin own p => ⟨minFlow_raised, minFlow_dropped, minFlow_unchanged⟩⟩
  case run =>
    exact ⟨shareDir_inj, shareDir_wd, shareDir_hold, shareAInj_eq i, shareAWd_eq i, rfl, rfl,
      ownAvail_hold i, rfl, rfl, siteAvail_hold i, fun d => trimApplies_iff d i.dirState, rfl, rfl, rfl, rfl⟩

end Sys2Proof.Machine
end

section
/-! The bounds of the setpoint and of the trim's accumulator (R136, R137, R139), and the setpoint stored
within the availabilities stored with it, which every step keeps. -/

namespace Sys2Proof.Machine

/-! ### The bounds of one computation -/

/-- What R136 and R137 give of a setpoint and its stored Q, before the minimum flow stage: Q within its
bound, and B + Q in 0 to A_own and equal to the setpoint. -/
def TrimBounds (own base bound : Nat) (formed : Nat × Int) : Prop :=
  -(bound : Int) ≤ formed.2 ∧ formed.2 ≤ bound ∧ 0 ≤ (base : Int) + formed.2 ∧
    (base : Int) + formed.2 ≤ own ∧ formed.1 = ((base : Int) + formed.2).toNat

/-- Where B + Q′ leaves 0 to A_own, the Q stored instead lies nearer to 0 than Q′ (R137). -/
theorem backCalculate_bounds {own base bound : Nat} {q : Int} (hb : base ≤ own)
    (hl : -(bound : Int) ≤ q) (hu : q ≤ bound) :
    TrimBounds own base bound (backCalculate own base q) := by
  unfold TrimBounds
  rcases lt_or_ge (own : Int) (base + q) with ho | ho
  · rw [backCalculate_over ho]
    dsimp only
    omega
  · rcases lt_or_ge ((base : Int) + q) 0 with hn | hn
    · rw [backCalculate_under hn]
      dsimp only
      omega
    · rw [backCalculate_inside hn ho]
      exact ⟨hl, hu, hn, ho, rfl⟩

section Trimmed

variable {c : StationCfg} {d : Dir} {i : ShareIn}

theorem trimmed_off (h : trimApplies d i.dirState (siteAvail d i) = false) :
    trimmed c d i = (baseShare i.target.natAbs (ownAvail d i) (siteAvail d i), 0) :=
  if_neg (Bool.eq_false_iff.1 h)

theorem trimmed_on (h : trimApplies d i.dirState (siteAvail d i) = true) :
    trimmed c d i = backCalculate (ownAvail d i) (baseShare i.target.natAbs (ownAvail d i) (siteAvail d i))
      (heldWithin (ownAvail d i / 4) (i.q + trimStep c.trimShift (ownAvail d i) (siteAvail d i)
        ((i.target.natAbs : Int) - siteFlow d i))) := if_pos h

/-- The bound of the trim is a quarter of A_own (R136). -/
theorem trimmed_bounds (h : trimApplies d i.dirState (siteAvail d i) = true) :
    TrimBounds (ownAvail d i) (baseShare i.target.natAbs (ownAvail d i) (siteAvail d i))
      (ownAvail d i / 4) (trimmed c d i) := by
  rw [trimmed_on h]
  exact backCalculate_bounds (baseShare_le _ _ _) (heldWithin_ge _ _) (heldWithin_le _ _)

end Trimmed

theorem trimmed_le (c : StationCfg) (d : Dir) (i : ShareIn) : (trimmed c d i).1 ≤ ownAvail d i := by
  cases h : trimApplies d i.dirState (siteAvail d i) with
  | false =>
    rw [trimmed_off h]
    exact baseShare_le _ _ _
  | true =>
    obtain ⟨-, -, -, hle, hp⟩ := trimmed_bounds (c := c) h
    rw [hp]
    exact Int.toNat_le.2 hle

theorem shareCompute_p_le (c : StationCfg) (i : ShareIn) :
    (shareCompute c i).p ≤ ownAvail (shareCompute c i).d i :=
  minFlow_le (trimmed_le c _ i)

theorem shareCompute_p_hold {c : StationCfg} {i : ShareIn} (h : (shareCompute c i).d = .hold) :
    (shareCompute c i).p = 0 := by
  have hle := shareCompute_p_le c i
  rwa [h, ownAvail_hold, Nat.le_zero] at hle

/-! ### The setpoint stored -/

/-- Last P lies within the larger of last A_INJ and last A_WD (R139, R140). -/
def SetpointWithin (x : Share) : Prop := x.lastP ≤ max x.lastAInj x.lastAWd

theorem setpointWithin_reset : SetpointWithin Share.reset := Nat.zero_le _

theorem runShare_share (s : State) :
    let o := shareCompute s.cfg.station (shareInputs s)
    (runShare s).share = { s.share with q := o.q, lastP := o.p, lastAInj := o.aInj, lastAWd := o.aWd } :=
  judgeDuty_keeps _ .share (by decide)

theorem runShare_setpointWithin (s : State) : SetpointWithin (runShare s).share := by
  rw [runShare_share]
  exact (shareCompute_p_le _ _).trans (ownAvail_le_max _ _)

theorem shareCycle_setpointWithin {s : State} (h : SetpointWithin s.share) :
    SetpointWithin (shareCycle s).share := by
  refine whenActive_keeps (fun t => SetpointWithin t.share) s _ h fun _ => ?_
  split
  · exact runShare_setpointWithin s
  · exact h

theorem takeStatus_setpointWithin {s : State} (h : SetpointWithin s.share) :
    SetpointWithin (takeStatus s).share := by
  obtain ⟨u, hu, -, -⟩ | k := takeStatus_cases s
  · rw [hu]
    exact setpointWithin_reset
  · have hs : (takeStatus s).share = s.share := k .share (by decide)
    rwa [hs]

/-- Entry to LISTENING starts the share cycle timer alone (R124, R207). -/
theorem takeImageBody_setpointWithin {s : State} (rest : List Byte) (h : SetpointWithin s.share) :
    SetpointWithin (takeImageBody rest s).share :=
  takeImageBody_induct (fun t => SetpointWithin t.share) rest s h h fun _ _ => h

/-- The reset, DUPLICATE, the end of the image read and a share cycle are all that writes the Share
Engine's record (`touches`). -/
theorem exec_setpointWithin {c : Instr} {s t : State} (hx : exec c s = .next t)
    (h : SetpointWithin s.share) : SetpointWithin t.share := by
  by_cases hc : Block.share ∈ touches c
  · cases c with
    | reset => cases hx; exact setpointWithin_reset
    | configImageRead rest => cases hx; exact takeImageBody_setpointWithin rest h
    | statusTake => cases hx; exact takeStatus_setpointWithin h
    | shareCycle => cases hx; exact shareCycle_setpointWithin h
    | _ => simp [touches] at hc
  · have hs : t.share = s.share := exec_keeps c hx .share hc
    rwa [hs]

/-- Settles O38: `exec_setpointWithin` for the command at the front, and the bounds of one computation
(`shareCompute_p_le`, `trimmed_bounds`), with `trimmed_off` where the trim does not apply. -/
theorem setpointStaysWithinOwnAvailability : Obligations.SetpointStaysWithinOwnAvailability := by
  refine ⟨fun s t hp h => ?step, fun c i =>
    ⟨shareCompute_p_le c i, shareCompute_p_hold, fun ht => ?trim, fun ht => ?plain⟩⟩
  case step =>
    obtain rfl | ⟨c, rest, -, hx⟩ := step_next h
    · exact hp
    · exact exec_setpointWithin (s := s.withPending rest) hx hp
  case trim =>
    obtain ⟨hl, hu, hn, hle, hformed⟩ := trimmed_bounds (c := c) ht
    exact ⟨hl, hu, hn, hle, congrArg (minFlow c.fmin _) hformed⟩
  case plain =>
    have hoff := trimmed_off (c := c) ht
    exact ⟨congrArg Prod.snd hoff, congrArg (minFlow c.fmin _) (congrArg Prod.fst hoff)⟩

end Sys2Proof.Machine
end

section
/-! The Direction Controller's entries (R148): to RUNDOWN, IDLE and TRIPPED, to a lineup and to INJECT or
WITHDRAW, with the judgements that entries make (R151 to R154, R157 to R160, R162). -/

namespace Sys2Proof.Machine

/-! ### Terms (R148, R149, R154, R158) -/

theorem whvClosed_iff (s : State) :
    whvClosed s = true ↔ s.level .whvClosedFb = true ∧ s.level .whvOpenFb = false := by
  simp [whvClosed]

theorem whvOpen_iff (s : State) :
    whvOpen s = true ↔ s.level .whvOpenFb = true ∧ s.level .whvClosedFb = false := by
  simp [whvOpen]

theorem lineOpen_eq (f : Flow) (s : State) :
    lineOpen f s = s.level (if f = .inj then .injvFb else .wdvFb) := by
  cases f <;> rfl

theorem unitReady_iff (f : Flow) (s : State) : unitReady f s = true ↔
    f = .wd ∨ s.compressor.u1.state = .running ∨ s.compressor.u2.state = .running := by
  cases f <;> simp [unitReady, anyRunning]

theorem lineupDone_iff (f : Flow) (s : State) :
    lineupDone f s = true ↔ whvOpen s = true ∧ lineOpen f s = true ∧ unitReady f s = true := by
  simp only [lineupDone, Bool.and_eq_true, and_assoc]

theorem lineupState_eq (f : Flow) : lineupState f = if f = .inj then .lineupInj else .lineupWd := by
  cases f <;> rfl

theorem flowState_eq (f : Flow) : flowState f = if f = .inj then .inject else .withdraw := by
  cases f <;> rfl

theorem flowDetail_eq (f : Flow) : flowDetail f = if f = .inj then 1 else 2 := by
  cases f <;> rfl

/-- A direction as the delivery d that asks for it. -/
theorem dirFlow_ofFlow (f : Flow) : dirFlow (if f = .inj then .inj else .wd) = some f := by
  cases f <;> rfl

theorem openValves_eq (f : Flow) (s : State) :
    openValves f s = setValves true (decide (f = .inj)) (decide (f = .wd)) false s := by
  cases f <;> rfl

/-- R158: the hold timer starts, runs on or stops. -/
theorem judgeHold_holdTimer (holdTime : Nat) (d : Direction) :
    judgeHold holdTime d = { d with holdTimer :=
      if d.heldD = .hold ∨ d.heldP = 0 then
        (if d.holdTimer = .stopped then .running (holdTime * 1000) else d.holdTimer)
      else .stopped } := by
  unfold judgeHold holdWanted
  by_cases hw : d.heldD = .hold ∨ d.heldP = 0
  · rw [if_pos (decide_eq_true hw), if_pos hw]
    by_cases ht : d.holdTimer = .stopped
    · rw [if_pos ht, if_neg (by simp [(isRunning_eq_false_iff _).2 ht])]
      rfl
    · rw [if_neg ht, if_pos (isRunning_of_ne ht)]
  · rw [if_neg (by simpa using hw), if_neg hw]

/-! ### RUNDOWN (R159, R160) -/

/-- Where R is 0 the duty is 0 through phase CLOSE. -/
theorem beginClose_still {s : State} (hr : s.direction.r = 0) :
    let closing := setValves false false false false (s.withDirection { s.direction with
      phase := .close, duty := 0, rampTimer := .stopped
      closeTimer := .running (s.cfg.station.closeTimeout * 1000) })
    beginClose s = if whvClosed s = true then enterIdle closing else closing := by
  have hduty : dutyOf s.cfg.station.rfull s.direction.r = 0 := by rw [hr, dutyOf_zero]
  unfold beginClose
  rw [hduty]
  rfl

/-- Settles O39: with gas still moving RUNDOWN keeps the valves and ramps; with R at 0 it closes in the same
act (`beginClose_still`). IDLE and TRIPPED set the record, the valves and what is told in one act. -/
theorem entriesSetLinesTimersAndNeighbours : Obligations.EntriesSetLinesTimersAndNeighbours := by
  refine ⟨fun f s hr => ?moving, fun f s hr => ?still, fun s => ?idle, fun cause s => ?tripped⟩
  case moving => exact if_neg hr
  case still => exact (if_pos hr).trans (beginClose_still hr)
  case idle => rfl
  case tripped => rfl

/-! ### The exit from IDLE (R152) -/

theorem settled_iff (f : Flow) (d : Direction) : settled f d = true ↔
    d.lastFlow = none ∨ d.lastFlow = some f ∨ d.settleMark = true := by
  simp [settled, or_assoc]

theorem exitFlow_wanted {f : Flow} {s : State} (hd : dirFlow s.direction.heldD = some f) :
    exitFlow s =
      if 0 < s.direction.heldP ∧ s.startup.station = .running ∧ settled f s.direction = true then some f
      else none := by
  rw [exitFlow, hd]

theorem judgeExit_wanted {f : Flow} {s : State} (hs : s.direction.state = .idle)
    (hd : dirFlow s.direction.heldD = some f) :
    judgeExit s =
      if 0 < s.direction.heldP ∧ s.startup.station = .running ∧ settled f s.direction = true then
        enterLineup f s
      else s := by
  rw [judgeExit, if_pos hs, exitFlow_wanted hd]
  split_ifs <;> rfl

theorem judgeExit_stays {s : State} (h : s.direction.state ≠ .idle ∨ s.direction.heldD = .hold) :
    judgeExit s = s := by
  unfold judgeExit
  split
  · next hs =>
    have hd : s.direction.heldD = .hold := h.resolve_left fun k => k hs
    rw [exitFlow, hd]
    rfl
  · rfl

/-! ### Lineups (R153, R154) -/

theorem judgeLineup_toward {f : Flow} {s : State} (hs : s.direction.state = lineupState f) :
    judgeLineup s =
      if whvOpen s = true ∧ lineOpen f s = true ∧ unitReady f s = true then enterFlow f s else s := by
  rw [judgeLineup, hs, lineupFlow_lineupState]
  exact if_congr (lineupDone_iff f s) rfl rfl

/-- Settles O40: the exit by what is held (`judgeExit_wanted`, `judgeExit_stays`), a lineup by its
conditions (`judgeLineup_toward`), the two entries by the direction's valves and state. -/
theorem lineupsOpenCompleteAndFlow : Obligations.LineupsOpenCompleteAndFlow := by
  refine ⟨fun f s hs hd => ?exit, fun s => judgeExit_stays, fun f s => ?lineup,
    fun s => ⟨fun hs => ?injection, fun hs => ?withdrawal⟩, fun f s => ?flow⟩
  case exit =>
    rw [judgeExit_wanted hs ((congrArg dirFlow hd).trans (dirFlow_ofFlow f))]
    simp only [settled_iff]
  case lineup =>
    rw [enterLineup, openValves_eq, lineupState_eq]
    rfl
  case injection =>
    rw [judgeLineup_toward (f := .inj) hs]
    simp [whvOpen_iff, lineOpen_eq, unitReady_iff, and_assoc]
  case withdrawal =>
    rw [judgeLineup_toward (f := .wd) hs]
    simp [whvOpen_iff, lineOpen_eq, unitReady_iff, and_assoc]
  case flow =>
    rw [enterFlow, openValves_eq, flowRec, judgeHold_holdTimer, flowState_eq, flowDetail_eq]
    rfl

end Sys2Proof.Machine
end

section
/-! What the Direction Controller takes from its neighbours, and the ramp: SHARE_DELIVERY judged by the
direction state (R150, R156, R158), COMPRESSOR_NOTICE (R154, R165) and RAMP_STEP (R164 to R166). -/

namespace Sys2Proof.Machine

/-! ### Deliveries (R150, R156, R158) -/

theorem takeDelivery_waiting {p : Nat} {d : Dir} {rest : List (Nat × Dir)} {s : State}
    (ha : s.active = true) (hd : s.inbox.deliveries = (p, d) :: rest) :
    takeDelivery s = deliver p d (s.withInbox { s.inbox with deliveries := rest }) := by
  rw [takeDelivery, whenActive_on s _ ha, hd]

theorem dirFlow_iff (d : Dir) (f : Flow) : dirFlow d = some f ↔ d = if f = .inj then .inj else .wd := by
  cases d <;> cases f <;> decide

/-- A delivery asks for the opposite flow where it asks neither for this one nor for none. -/
theorem not_reversal_iff (d : Dir) (f : Flow) :
    (dirFlow d = some f ∨ d = .hold) ↔ d ≠ if f = .inj then .wd else .inj := by
  cases d <;> cases f <;> decide

section Deliver

variable {f : Flow} {p : Nat} {d : Dir} {s : State}

theorem deliver_idle (hs : s.direction.state = .idle) :
    deliver p d s = judgeExit (s.withDirection { s.direction with heldP := p, heldD := d }) := by
  rw [deliver, hs]

theorem deliver_unjudged (hs : s.direction.state = .rundown ∨ s.direction.state = .tripped) :
    deliver p d s = s.withDirection { s.direction with heldP := p, heldD := d } := by
  obtain hs | hs := hs <;> rw [deliver, hs]

theorem deliver_lineup (hs : s.direction.state = lineupState f) :
    deliver p d s =
      if d = (if f = .inj then .inj else .wd) then
        s.withDirection { s.direction with heldP := p, heldD := d }
      else enterRundown f (s.withDirection { s.direction with heldP := p, heldD := d }) := by
  have judged : deliver p d s =
      lineupDelivery f d (s.withDirection { s.direction with heldP := p, heldD := d }) := by
    cases f <;> rw [deliver, hs] <;> rfl
  exact judged.trans (if_congr (dirFlow_iff d f) rfl rfl)

theorem deliver_flowing (hs : s.direction.state = if f = .inj then .inject else .withdraw) :
    deliver p d s = flowDelivery f d (s.withDirection { s.direction with heldP := p, heldD := d }) := by
  cases f <;> rw [deliver, hs] <;> rfl

theorem deliver_reversed (hs : s.direction.state = if f = .inj then .inject else .withdraw)
    (h : d = if f = .inj then .wd else .inj) :
    deliver p d s = enterRundown f (s.withDirection { s.direction with heldP := p, heldD := d }) :=
  (deliver_flowing hs).trans (if_neg fun k => (not_reversal_iff d f).1 k h)

/-- Without a reversal the hold timer alone is judged, by what is now held. -/
theorem deliver_held (hs : s.direction.state = if f = .inj then .inject else .withdraw)
    (h : d ≠ if f = .inj then .wd else .inj) :
    deliver p d s = s.withDirection { s.direction with heldP := p, heldD := d, holdTimer :=
      if d = .hold ∨ p = 0 then
        (if s.direction.holdTimer = .stopped then .running (s.cfg.station.holdTime * 1000)
        else s.direction.holdTimer)
      else .stopped } := by
  rw [deliver_flowing hs, flowDelivery, if_pos ((not_reversal_iff d f).2 h), judgeHold_holdTimer]
  rfl

end Deliver

/-- Settles O41: the delivery is taken (`takeDelivery_waiting`), and `deliver` judges it by the state. -/
theorem deliveryIsJudgedByDirectionState : Obligations.DeliveryIsJudgedByDirectionState := by
  intro p d rest s ha hd held
  have run : exec .shareDelivery s = .next (deliver p d _) :=
    congrArg Host.Outcome.next (takeDelivery_waiting ha hd)
  rw [run]
  refine ⟨fun hs => ?idle, fun hs => ?unjudged, fun hs => ?injection, fun hs => ?withdrawal,
    fun f hs => ⟨fun h => ?reversed, fun h => ?holds⟩⟩
  case idle => exact congrArg Host.Outcome.next (deliver_idle hs)
  case unjudged => exact congrArg Host.Outcome.next (deliver_unjudged hs)
  case injection => exact congrArg Host.Outcome.next (deliver_lineup (f := .inj) hs)
  case withdrawal => exact congrArg Host.Outcome.next (deliver_lineup (f := .wd) hs)
  case reversed => exact congrArg Host.Outcome.next (deliver_reversed hs h)
  case holds => exact congrArg Host.Outcome.next (deliver_held hs h)

/-! ### Notices (R94, R154, R165) -/

theorem takeNotice_waiting {n : Notice} {rest : List Notice} {s : State} (ha : s.active = true)
    (hn : s.inbox.notices = n :: rest) :
    takeNotice s = takeNoticeOf n (s.withInbox { s.inbox with notices := rest }) := by
  rw [takeNotice, whenActive_on s _ ha, hn]

theorem boundedByRun_iff (d : Direction) : boundedByRun d = true ↔
    d.state = .inject ∨ (d.state = .rundown ∧ d.remembered = .inj) :=
  decide_eq_true_iff

/-- An entry notice judges a lineup to injection and leaves R as it stands. -/
theorem takeNoticeOf_entered {n : Notice} (s : State) (h : n.entered = true) :
    let held := s.withDirection { s.direction with heldCrun := n.cRun }
    takeNoticeOf n s = if s.direction.state = .lineupInj then judgeLineup held else held :=
  if_pos h

theorem takeNoticeOf_left {n : Notice} (s : State) (h : n.entered = false) :
    let held := s.withDirection { s.direction with heldCrun := n.cRun }
    takeNoticeOf n s =
      if (s.direction.state = .inject ∨ (s.direction.state = .rundown ∧ s.direction.remembered = .inj)) ∧
          n.cRun < s.direction.r then
        closeAtZero (s.withDirection { s.direction with
          heldCrun := n.cRun, r := n.cRun, duty := dutyOf s.cfg.station.rfull n.cRun })
      else held :=
  (if_neg (by simp [h])).trans (if_congr (and_congr_left fun _ => boundedByRun_iff _) rfl rfl)

/-- Settles O42: the notice is taken (`takeNotice_waiting`) and acts by its kind (`takeNoticeOf_entered`,
`takeNoticeOf_left`). -/
theorem noticeReplacesHeldCrunAndLowersR : Obligations.NoticeReplacesHeldCrunAndLowersR := by
  intro n rest s ha hn held bounded lowered
  have run : exec .compressorNotice s = .next (takeNoticeOf n _) :=
    congrArg Host.Outcome.next (takeNotice_waiting ha hn)
  rw [run]
  refine ⟨fun he hs => ?lineup, fun he hs => ?entered, fun he h => ?left, fun he hb hlow => ?lowers⟩
  case lineup =>
    rw [takeNoticeOf_entered _ he]
    exact congrArg Host.Outcome.next (if_pos hs)
  case entered =>
    rw [takeNoticeOf_entered _ he]
    exact congrArg Host.Outcome.next (if_neg hs)
  case left =>
    rw [takeNoticeOf_left _ he]
    exact congrArg Host.Outcome.next (if_neg h)
  case lowers =>
    rw [takeNoticeOf_left _ he]
    exact congrArg Host.Outcome.next (if_pos ⟨hb, hlow⟩)

/-! ### The ramp (R164, R165, R166) -/

/-- A distance is not rounded up past itself, as α is at most 32, nor to 0, as α is at least 1. -/
theorem rampSize_within {alpha deltaMax distance : Nat} (ha : 1 ≤ alpha) (hle : alpha ≤ 32)
    (hd : 1 ≤ deltaMax) (hdist : 0 < distance) :
    0 < rampSize alpha deltaMax distance ∧ rampSize alpha deltaMax distance ≤ distance := by
  have hlow : distance ≤ distance * alpha := Nat.le_mul_of_pos_right _ ha
  have hhigh : distance * alpha ≤ distance * 32 := Nat.mul_le_mul_left _ hle
  have hpos : 0 < (distance * alpha + 31) / 32 := by omega
  have hbound : (distance * alpha + 31) / 32 ≤ distance := by omega
  exact ⟨lt_min hd hpos, (min_le_right _ _).trans hbound⟩

/-- The step is one expression of the distance, whichever way R goes. -/
theorem moveR_eq (alpha deltaMax r target : Nat) :
    let distance := if r < target then target - r else r - target
    moveR alpha deltaMax r target =
      if r < target then r + rampSize alpha deltaMax distance
      else r - rampSize alpha deltaMax distance := by
  intro distance
  by_cases h : r < target <;> simp only [moveR, distance, h, ↓reduceIte]

/-- R164's target in the states that ramp. -/
theorem rampTarget_ramping {d : Direction}
    (hs : d.state = .inject ∨ d.state = .withdraw ∨ d.state = .rundown) :
    rampTarget d =
      if d.state = .inject then min d.heldP d.heldCrun else if d.state = .withdraw then d.heldP else 0 := by
  obtain hs | hs | hs := hs <;> rw [rampTarget, hs] <;> rfl

theorem clampR_r (d : Direction) : clampR d = { d with r :=
    if d.state = .inject ∨ (d.state = .rundown ∧ d.remembered = .inj) then min d.r d.heldCrun
    else d.r } := by
  unfold clampR
  split
  · next h => rw [if_pos ((boundedByRun_iff d).1 h)]
  · next h => rw [if_neg (mt (boundedByRun_iff d).2 h)]

theorem rampStep_running {s : State} (ha : s.active = true) (ht : s.direction.rampTimer ≠ .stopped) :
    rampStep s = closeAtZero (s.withDirection (stepRec s.cfg.station (cRun s) s.direction)) := by
  rw [rampStep, whenActive_on s _ ha]
  exact if_pos (isRunning_of_ne ht)

/-- Settles O43: the step taken (`rampStep_running`) with its clamp, target and size; and the size within
the distance (`rampSize_within`). -/
theorem rampStepMovesRTowardItsTarget : Obligations.RampStepMovesRTowardItsTarget := by
  refine ⟨fun s ha ht hs => ?step, fun alpha deltaMax r target hα hle hΔ =>
    ⟨fun h => ?below, fun h => ?above, fun h => ?still⟩⟩
  case step =>
    intro run bounded r1 target distance size r2 moved
    have stepped : stepRec s.cfg.station run s.direction =
        { s.direction with heldCrun := run, r := r2, duty := dutyOf s.cfg.station.rfull r2 } := by
      simp only [stepRec, clampR_r]
      rw [rampTarget_ramping, moveR_eq]
      · rfl
      · exact hs
    refine congrArg Host.Outcome.next ((rampStep_running ha ht).trans ?_)
    rw [stepped]
    rfl
  case below =>
    obtain ⟨hpos, hsize⟩ := rampSize_within hα hle hΔ (Nat.sub_pos_of_lt h)
    rw [moveR, if_pos h]
    omega
  case above =>
    obtain ⟨hpos, hsize⟩ := rampSize_within hα hle hΔ (Nat.sub_pos_of_lt h)
    rw [moveR, if_neg h.not_gt]
    omega
  case still =>
    subst h
    simp [moveR, rampSize]

end Sys2Proof.Machine
end

section
/-! The Direction Controller's judgement points and timers: valve feedbacks, the settle timer and the entry
to RUNNING (R149, R151, R152, R160), ESTOP_IN and the clears of a trip (R161, R163), and the lineup, hold and
close timers (R155, R158, R160). -/

namespace Sys2Proof.Machine

/-! ### Valve feedbacks (R149, R160) -/

theorem valveChange_waiting {fb : ValveFb} {lvl : Bool} {rest : List (Role × Bool)} {s : State}
    (ha : s.active = true) (hc : takeChange (valveRole fb) s.inbox.lineChanges = some (lvl, rest)) :
    valveChange fb s = judgeFeedback (s.withInbox { s.inbox with lineChanges := rest }) := by
  rw [valveChange, whenActive_on s _ ha, hc]

section JudgeFeedback

variable {s : State}

theorem judgeFeedback_lineup (hs : s.direction.state = .lineupInj ∨ s.direction.state = .lineupWd) :
    judgeFeedback s = judgeLineup s := by
  obtain hs | hs := hs <;> rw [judgeFeedback, hs]

theorem judgeFeedback_closing (hs : s.direction.state = .rundown) (hp : s.direction.phase = .close) :
    judgeFeedback s =
      if s.level .whvClosedFb = true ∧ s.level .whvOpenFb = false then enterIdle s else s := by
  rw [judgeFeedback, hs]
  exact if_congr ((and_iff_right hp).trans (whvClosed_iff s)) rfl rfl

theorem judgeFeedback_rests (h : s.direction.state ∈ [DirState.idle, .inject, .withdraw, .tripped] ∨
    (s.direction.state = .rundown ∧ s.direction.phase = .ramp)) : judgeFeedback s = s := by
  obtain hs | ⟨hs, hp⟩ := h
  · simp only [List.mem_cons, List.not_mem_nil, or_false] at hs
    obtain hs | hs | hs | hs := hs <;> rw [judgeFeedback, hs]
  · rw [judgeFeedback, hs]
    exact if_neg fun k => by simp [hp] at k

end JudgeFeedback

/-! ### The settle timer and the entry to RUNNING (R151, R152) -/

theorem settleExpiry_running {s : State} (ha : s.active = true) (ht : s.direction.settle ≠ .stopped) :
    settleExpiry s =
      judgeExit (s.withDirection { s.direction with settle := .stopped, settleMark := true }) := by
  rw [settleExpiry, whenActive_on s _ ha]
  exact if_pos (isRunning_of_ne ht)

theorem directionEntry_waiting {s : State} (ha : s.active = true)
    (hr : s.inbox.runningToDirection = true) :
    directionEntry s = judgeExit (s.withInbox { s.inbox with runningToDirection := false }) := by
  rw [directionEntry, whenActive_on s _ ha]
  exact if_pos hr

/-- Settles O44: `whvClosed_iff`; the change taken (`valveChange_waiting`) and judged by the state; the two
judgements of the exit. -/
theorem feedbackSettleAndEntryAreJudgementPoints :
    Obligations.FeedbackSettleAndEntryAreJudgementPoints := by
  refine ⟨whvClosed_iff, fun fb lvl rest s ha hc => ?feedback, fun s ha ht => ?settle,
    fun s ha hr => ?entry⟩
  case feedback =>
    intro taken
    have run : exec (.valveFeedbackChange fb) s = .next (judgeFeedback taken) :=
      congrArg Host.Outcome.next (valveChange_waiting ha hc)
    rw [run]
    refine ⟨fun hs => ?lineup, fun hs hp => ?closing, fun h => ?rests⟩
    case lineup => exact congrArg Host.Outcome.next (judgeFeedback_lineup hs)
    case closing => exact congrArg Host.Outcome.next (judgeFeedback_closing hs hp)
    case rests => exact congrArg Host.Outcome.next (judgeFeedback_rests h)
  case settle => exact congrArg Host.Outcome.next (settleExpiry_running ha ht)
  case entry => exact congrArg Host.Outcome.next (directionEntry_waiting ha hr)

/-! ### The clears of a trip (R163) -/

section Clears

variable {s : State}

theorem clearRefusal_estop (he : s.level .estopIn = true) : clearRefusal s = some 2 :=
  if_pos he

theorem clearRefusal_open (he : s.level .estopIn = false) (hv : whvClosed s = false) :
    clearRefusal s = some 3 := by
  simp [clearRefusal, he, hv]

theorem clearRefusal_none (he : s.level .estopIn = false) (hv : whvClosed s = true) :
    clearRefusal s = none := by
  simp [clearRefusal, he, hv]

theorem clearByFrame_refused {reason : Nat} (hs : s.direction.state = .tripped)
    (hr : clearRefusal s = some reason) : clearByFrame s = post .clearRefused (1 + 256 * reason) s := by
  rw [clearByFrame, if_pos hs, hr]

theorem clearByFrame_clears (hs : s.direction.state = .tripped) (hr : clearRefusal s = none) :
    clearByFrame s = clearTripped 1 s := by
  rw [clearByFrame, if_pos hs, hr]

theorem clearByLine_refused {reason : Nat} (hs : s.direction.state = .tripped)
    (hr : clearRefusal s = some reason) : clearByLine s = post .clearRefused (256 * reason) s := by
  rw [clearByLine, if_pos hs, hr]

theorem clearByLine_clears (hs : s.direction.state = .tripped) (hr : clearRefusal s = none) :
    clearByLine s = clearTripped 2 s := by
  rw [clearByLine, if_pos hs, hr]

end Clears

theorem body_of_directionController {f : RxFrame} (h : consumerOf f.body = .directionController) :
    f.body = .clear .trip := by
  cases hb : f.body with
  | clear target =>
    cases target with
    | trip => rfl
    | unit | tower => rw [hb] at h; cases h
  | _ => rw [hb] at h; cases h

/-- The Direction Controller's frames are the clears of a trip alone (R27). -/
theorem takeClearTrip_frame {f : RxFrame} {rest : List RxFrame} {s : State} (ha : s.active = true)
    (hf : takeFrame .directionController s.link.buffers = some (f, rest)) :
    takeClearTrip s = clearByFrame (s.withLink { s.link with buffers := rest }) := by
  obtain ⟨hconsumer, -⟩ := takeFrame_length _ _ f rest hf
  refine takeBy_some _ s _ f rest clearByFrame ha hf ?_
  rw [body_of_directionController hconsumer]

/-- Settles O45: the change is taken (`takeLine_some`) and trips; a clear is taken, from a frame
(`takeClearTrip_frame`) or from the line, and judged by `clearRefusal`. -/
theorem emergencyStopTripsAndClearsAreJudged : Obligations.EmergencyStopTripsAndClearsAreJudged := by
  refine ⟨fun rest s ha hc => ?trips, fun rest s ha hc => ?released, fun f rest s ha hf => ?frame,
    fun rest s ha hc => ?line⟩
  case trips => exact congrArg Host.Outcome.next (takeLine_some _ _ s _ rest ha hc)
  case released => exact congrArg Host.Outcome.next (takeLine_some _ _ s _ rest ha hc)
  case frame =>
    intro taken cleared
    have run : exec .clearTrip s = .next (clearByFrame taken) :=
      congrArg Host.Outcome.next (takeClearTrip_frame ha hf)
    rw [run]
    refine ⟨fun hs => ?_, fun hs he => ?_, fun hs he hv => ?_, fun hs he hv => ?_⟩
    · exact congrArg Host.Outcome.next (if_neg hs)
    · exact congrArg Host.Outcome.next (clearByFrame_refused (s := taken) hs (clearRefusal_estop he))
    · exact congrArg Host.Outcome.next (clearByFrame_refused (s := taken) hs (clearRefusal_open he hv))
    · exact congrArg Host.Outcome.next (clearByFrame_clears hs (clearRefusal_none he hv))
  case line =>
    intro taken cleared
    have run : exec .clearInAssertion s = .next (clearByLine taken) :=
      congrArg Host.Outcome.next (takeLine_some _ _ s _ rest ha hc)
    rw [run]
    refine ⟨fun hs => ?_, fun hs he => ?_, fun hs he hv => ?_, fun hs he hv => ?_⟩
    · exact congrArg Host.Outcome.next (if_neg hs)
    · exact congrArg Host.Outcome.next (clearByLine_refused (s := taken) hs (clearRefusal_estop he))
    · exact congrArg Host.Outcome.next (clearByLine_refused (s := taken) hs (clearRefusal_open he hv))
    · exact congrArg Host.Outcome.next (clearByLine_clears hs (clearRefusal_none he hv))

/-! ### The lineup, hold and close timers (R155, R158, R160) -/

section Expiries

variable {f : Flow} {s : State}

theorem bitValue_not (b : Bool) (n : Nat) : bitValue (!b) n = if b = true then 0 else n := by
  cases b <;> rfl

/-- R155: a bit for each condition that does not hold. -/
theorem missingMask_eq (f : Flow) (s : State) : missingMask f s =
    (if whvOpen s = true then 0 else 1) + (if lineOpen f s = true then 0 else 2) +
      (if unitReady f s = true then 0 else 4) := by
  simp only [missingMask, bitValue_not]

theorem lineupExpiry_running (ha : s.active = true) (ht : s.direction.lineupTimer ≠ .stopped)
    (hs : s.direction.state = lineupState f) : lineupExpiry s = failLineup f s := by
  rw [lineupExpiry, whenActive_on s _ ha, if_pos (isRunning_of_ne ht), hs, lineupFlow_lineupState]

theorem holdExpiry_running (ha : s.active = true) (ht : s.direction.holdTimer ≠ .stopped)
    (hs : s.direction.state = flowState f) : holdExpiry s = enterRundown f s := by
  rw [holdExpiry, whenActive_on s _ ha, if_pos (isRunning_of_ne ht), hs, flowing_flowState]

theorem closeExpiry_running (ha : s.active = true) (ht : s.direction.closeTimer ≠ .stopped) :
    closeExpiry s = enterTripped .valve s := by
  rw [closeExpiry, whenActive_on s _ ha]
  exact if_pos (isRunning_of_ne ht)

end Expiries

/-- Settles O46: each expiry by its own lemma; a failed lineup's detail is `missingMask_eq`. -/
theorem lineupHoldAndCloseTimersAct : Obligations.LineupHoldAndCloseTimersAct := by
  refine ⟨fun f s ha ht hs => ?lineup, fun f s ha ht hs => ?hold, fun s ha ht => ?close⟩
  case lineup =>
    intro n open_ line unit failed
    have run : exec .lineupTimerExpiry s = .next (failLineup f s) :=
      congrArg Host.Outcome.next (lineupExpiry_running ha ht (hs.trans (lineupState_eq f).symm))
    have mask : missingMask f s =
        (if open_ then 0 else 1) + (if line then 0 else 2) + (if unit then 0 else 4) := by
      rw [missingMask_eq, if_congr (whvOpen_iff s) rfl rfl, if_congr (unitReady_iff f s) rfl rfl, lineOpen_eq]
    rw [run, failLineup, mask]
    rfl
  case hold =>
    exact congrArg Host.Outcome.next (holdExpiry_running ha ht (hs.trans (flowState_eq f).symm))
  case close => exact congrArg Host.Outcome.next (closeExpiry_running ha ht)

end Sys2Proof.Machine
end

section
/-! The Account Store's records and tables (R169, R176): what an index reads after a record, a table, an
entry or a chain's end has been replaced, and what an act on the store leaves as it stands. -/

namespace Sys2Proof.Machine

/-! ### Records -/

section Records

variable {a c : Accounts} {i j : Nat} {r : AccRec}

theorem acc_of_set_self (hc : c.recs = a.recs.set i r) (hi : i < a.recs.length) : c.acc i = r := by
  rw [Accounts.acc, hc]
  exact (recAt_set a.recs i i r hi).trans (if_pos rfl)

theorem acc_of_set_ne (hc : c.recs = a.recs.set i r) (h : j ≠ i) : c.acc j = a.acc j := by
  rw [Accounts.acc, hc, List.getD_eq_getElem?_getD, List.getElem?_set_ne h.symm,
    ← List.getD_eq_getElem?_getD]
  rfl

/-- A list read at an index before which both lists reach, once they are combined index by index. -/
theorem getD_zipWith {α β γ : Type} (f : α → β → γ) {as : List α} {bs : List β} {a₀ : α} {b₀ : β} {c₀ : γ}
    (ha : i < as.length) (hb : i < bs.length) :
    (List.zipWith f as bs).getD i c₀ = f (as.getD i a₀) (bs.getD i b₀) := by
  simp [List.getD_eq_getElem?_getD, ha, hb]

end Records

/-! ### Tables -/

section Tables

variable {a : Accounts} {t u : TableId} {x : List Entry} {i j : Nat} {e : Entry}

theorem setTable_eq (a : Accounts) (t : TableId) (x : List Entry) : a.setTable t x = { a with
    p0 := (a.setTable t x).p0, p1 := (a.setTable t x).p1, p2 := (a.setTable t x).p2 } := by
  cases t <;> rfl

theorem table_setTable : (a.setTable t x).table u = if u = t then x else a.table u := by
  cases t <;> cases u <;> rfl

theorem table_setTable_self : (a.setTable t x).table t = x := table_setTable.trans (if_pos rfl)

theorem table_setTable_ne (h : u ≠ t) : (a.setTable t x).table u = a.table u :=
  table_setTable.trans (if_neg h)

theorem setEntry_eq (a : Accounts) (t : TableId) (i : Nat) (e : Entry) : a.setEntry t i e = { a with
    p0 := (a.setEntry t i e).p0, p1 := (a.setEntry t i e).p1, p2 := (a.setEntry t i e).p2 } :=
  setTable_eq a t _

theorem table_setEntry_self : (a.setEntry t i e).table t = (a.table t).set i e := table_setTable_self

theorem table_setEntry_ne (h : u ≠ t) : (a.setEntry t i e).table u = a.table u := table_setTable_ne h

theorem table_setEntry_length : ((a.setEntry t i e).table u).length = (a.table u).length := by
  by_cases h : u = t
  · rw [h, table_setEntry_self, List.length_set]
  · rw [table_setEntry_ne h]

theorem entry_setEntry_self (hi : i < (a.table t).length) : (a.setEntry t i e).entry t i = e := by
  rw [Accounts.entry, table_setEntry_self]
  simp [List.getD_eq_getElem?_getD, hi]

theorem entry_setEntry_ne (h : u ≠ t ∨ j ≠ i) : (a.setEntry t i e).entry u j = a.entry u j := by
  by_cases hu : u = t
  · have hj : j ≠ i := h.resolve_left fun n => n hu
    rw [Accounts.entry, hu, table_setEntry_self, List.getD_eq_getElem?_getD,
      List.getElem?_set_ne hj.symm, ← List.getD_eq_getElem?_getD]
    rfl
  · rw [Accounts.entry, table_setEntry_ne hu]
    rfl

end Tables

/-! ### Rights (R173) -/

theorem clampRate_eq (r : AccRec) (n : Int) :
    clampRate r n = max (-(r.wdRight : Int)) (min r.injRight n) := by
  unfold clampRate
  split
  · omega
  · split <;> omega

theorem clampRate_within (r : AccRec) (n : Int) :
    -(r.wdRight : Int) ≤ clampRate r n ∧ clampRate r n ≤ r.injRight := by
  rw [clampRate_eq]
  omega

theorem withinRights_of_some {r : AccRec} {e : Entry} {n : Int} (he : e.nomination = some n)
    (h : -(r.wdRight : Int) ≤ n ∧ n ≤ r.injRight) : WithinRights r e := by
  intro m hm
  rw [he] at hm
  cases hm
  exact h

theorem withinRights_of_none {r : AccRec} {e : Entry} (he : e.nomination = none) : WithinRights r e := by
  intro m hm
  rw [he] at hm
  cases hm

theorem placed_within (r : AccRec) (n : Int) (e : Entry) : WithinRights r (placed r n e) :=
  withinRights_of_some rfl (clampRate_within r n)

theorem reclamp_within (r : AccRec) (e : Entry) : WithinRights r (reclamp r e) := by
  unfold reclamp
  cases h : e.nomination with
  | none => exact withinRights_of_none h
  | some n => exact withinRights_of_some rfl (clampRate_within r n)

theorem reclamp_none {r : AccRec} {e : Entry} (h : e.nomination = none) : reclamp r e = e := by
  simp only [reclamp, h]

theorem reclamp_some {r : AccRec} {e : Entry} {n : Int} (h : e.nomination = some n) :
    reclamp r e = { e with
      nomination := some (clampRate r n), curtailed := e.curtailed || decide (clampRate r n ≠ n) } := by
  simp only [reclamp, h]

/-! ### A new account (R170, R172) -/

theorem appendChain_eq (a : Accounts) (code new : Nat) : appendChain a code new = { a with
    recs := (appendChain a code new).recs, buckets := (appendChain a code new).buckets } := by
  unfold appendChain
  split <;> rfl

/-- Only the link of a chain's end changes (R170). -/
theorem appendChain_acc (a : Accounts) (code new j : Nat) : (appendChain a code new).acc j =
    { a.acc j with link := ((appendChain a code new).acc j).link } := by
  unfold appendChain
  split
  · rfl
  · next head _ =>
    dsimp only
    generalize chainEnd a.recs 48 head = last
    by_cases hj : j = last
    · by_cases hl : last < a.recs.length
      · rw [hj, acc_of_set_self rfl hl]
      · rw [List.set_eq_of_length_le (Nat.le_of_not_lt hl)]
    · rw [acc_of_set_ne rfl hj]

theorem appendChain_recs_length (a : Accounts) (code new : Nat) :
    (appendChain a code new).recs.length = a.recs.length := by
  unfold appendChain
  split
  · rfl
  · exact List.length_set

/-- The record that SETUP makes (R172). -/
def freshRec (code injR wdR : Nat) : AccRec :=
  { AccRec.blank with present := true, code := code, injRight := injR, wdRight := wdR }

/-- The store with a popped index given to a new record, before the record is linked (R172). -/
def claimed (i code injR wdR : Nat) (rest : List Nat) (a : Accounts) : Accounts :=
  { a with stack := rest, recs := a.recs.set i (freshRec code injR wdR) }

theorem newAccount_claimed (i code injR wdR : Nat) (rest : List Nat) (a : Accounts) :
    newAccount i code injR wdR rest a = appendChain (claimed i code injR wdR rest a) code i := rfl

section NewAccount

variable {i j code injR wdR : Nat} {rest : List Nat} {a : Accounts}

theorem newAccount_eq (i code injR wdR : Nat) (rest : List Nat) (a : Accounts) :
    newAccount i code injR wdR rest a = { a with
      recs := (newAccount i code injR wdR rest a).recs
      buckets := (newAccount i code injR wdR rest a).buckets
      stack := rest } := appendChain_eq _ _ _

theorem newAccount_recs_length : (newAccount i code injR wdR rest a).recs.length = a.recs.length :=
  (appendChain_recs_length _ _ _).trans List.length_set

theorem newAccount_acc_ne (h : j ≠ i) : ∃ link,
    (newAccount i code injR wdR rest a).acc j = { a.acc j with link := link } := by
  have kept : (claimed i code injR wdR rest a).acc j = a.acc j := acc_of_set_ne rfl h
  rw [newAccount_claimed, appendChain_acc, kept]
  exact ⟨_, rfl⟩

end NewAccount

/-! ### A retired account (R175) -/

theorem retired_recs_length (i : Nat) (a : Accounts) : (retired i a).recs.length = a.recs.length := by
  show ((((unlink a i).recs.set i _).set 0 _)).length = _
  rw [List.length_set, List.length_set]
  exact List.length_map _

theorem retired_table (i : Nat) (a : Accounts) (t : TableId) :
    (retired i a).table t = (a.table t).set i { a.entry t i with curtailed := false } := by
  cases t <;> rfl

theorem retired_entry (i : Nat) (a : Accounts) (t : TableId) (j : Nat) :
    (retired i a).entry t j = { a.entry t j with
      curtailed := (a.entry t j).curtailed && decide (j ≠ i) } := by
  rw [Accounts.entry, retired_table]
  by_cases hj : j = i
  · subst hj
    by_cases hl : j < (a.table t).length
    · simp [List.getD_eq_getElem?_getD, hl]
    · have beyond : a.entry t j = Entry.blank := by
        simp [Accounts.entry, List.getD_eq_getElem?_getD, Nat.le_of_not_lt hl]
      rw [List.set_eq_of_length_le (Nat.le_of_not_lt hl)]
      exact beyond.trans (by rw [beyond]; rfl)
  · rw [List.getD_eq_getElem?_getD, List.getElem?_set_ne (Ne.symm hj), ← List.getD_eq_getElem?_getD]
    simp [Accounts.entry, hj]

/-- Clearing a mark in a cleared table changes nothing. -/
theorem set_blankTable (i : Nat) : Entry.blankTable.set i Entry.blank = Entry.blankTable :=
  List.set_replicate_self

/-! ### Carry-forward entry by entry (R181) -/

theorem carryTable_length (rs : List AccRec) (os ns : List Entry) :
    (carryTable rs os ns).length = ns.length := by
  induction rs generalizing os ns with
  | nil => rfl
  | cons r rs ih =>
    cases os with
    | nil => rfl
    | cons o os =>
      cases ns with
      | nil => rfl
      | cons n ns => exact congrArg Nat.succ (ih os ns)

theorem carries_blank_rec (o n : Entry) : carries AccRec.blank o n = false := rfl

theorem carries_blank_old (r : AccRec) (n : Entry) : carries r Entry.blank n = false := by
  simp [carries, nominated, Entry.blank]

theorem carryEntry_of_not {r : AccRec} {o n : Entry} (h : carries r o n = false) :
    carryEntry r o n = n := by
  simp [carryEntry, h]

theorem carryTable_getD (rs : List AccRec) {os ns : List Entry} (h : os.length ≤ ns.length) (i : Nat) :
    (carryTable rs os ns).getD i Entry.blank =
      carryEntry (rs.getD i AccRec.blank) (os.getD i Entry.blank) (ns.getD i Entry.blank) := by
  induction rs generalizing os ns i with
  | nil => exact (carryEntry_of_not (carries_blank_rec _ _)).symm
  | cons r rs ih =>
    cases os with
    | nil => exact (carryEntry_of_not (carries_blank_old _ _)).symm
    | cons o os =>
      cases ns with
      | nil => cases h
      | cons n ns =>
        cases i with
        | zero => rfl
        | succ i => exact ih (Nat.le_of_succ_le_succ h) i

/-- The events of carry-forward, read index by index (R181, log 22). -/
theorem carryTableEvents_eq {rs : List AccRec} {os ns : List Entry} (ho : os.length = rs.length)
    (hn : ns.length = rs.length) : carryTableEvents rs os ns = (List.range rs.length).flatMap fun i =>
      carryEvents (rs.getD i AccRec.blank) (os.getD i Entry.blank) (ns.getD i Entry.blank) := by
  induction rs generalizing os ns with
  | nil => rfl
  | cons r rs ih =>
    obtain ⟨o, os, rfl⟩ := List.exists_cons_of_length_eq_add_one ho
    obtain ⟨n, ns, rfl⟩ := List.exists_cons_of_length_eq_add_one hn
    rw [List.length_cons, List.range_succ_eq_map, List.flatMap_cons, List.flatMap_map, carryTableEvents,
      ih (Nat.succ.inj ho) (Nat.succ.inj hn)]
    rfl

end Sys2Proof.Machine
end

section
/-! What a rotation (R180, R181), the closing report's cursor (R182) and an increment given out (R188, R190)
make of the Account Store's tables and records. -/

namespace Sys2Proof.Machine

/-! ### Rotation (R180) -/

section Rotation

variable {a : Accounts} {seq : Word16}

theorem cutShort_eq (a : Accounts) : cutShort a = { a with
    p0 := (cutShort a).p0, p1 := (cutShort a).p1, p2 := (cutShort a).p2
    reporting := (cutShort a).reporting, cursor := (cutShort a).cursor } := by
  unfold cutShort
  split
  · rw [setTable_eq]
  · rfl

@[simp] theorem cutShort_recs (a : Accounts) : (cutShort a).recs = a.recs := by rw [cutShort_eq]
@[simp] theorem cutShort_openT (a : Accounts) : (cutShort a).openT = a.openT := by rw [cutShort_eq]
@[simp] theorem cutShort_pendingT (a : Accounts) : (cutShort a).pendingT = a.pendingT := by rw [cutShort_eq]

theorem cutShort_table_ne {t : TableId} (h : t ≠ a.closedT) : (cutShort a).table t = a.table t := by
  unfold cutShort
  split
  · exact table_setTable_ne h
  · rfl

/-- A report cut short leaves the CLOSED table cleared, and a CLEAN one is (R180, R182). -/
theorem cutShort_table_closed (hclean : a.reporting = false → a.table a.closedT = Entry.blankTable) :
    (cutShort a).table a.closedT = Entry.blankTable := by
  unfold cutShort
  split
  · exact table_setTable_self
  · next h => exact hclean (eq_false_of_ne_true h)

theorem rotated_eq (seq : Word16) (a : Accounts) : rotated seq a = { a with
    p0 := (rotated seq a).p0, p1 := (rotated seq a).p1, p2 := (rotated seq a).p2
    openT := a.pendingT, closedT := a.openT, pendingT := a.closedT
    openSeq := seq, closedSeq := a.openSeq, reporting := true, cursor := some 0 } := by
  unfold rotated
  dsimp only
  rw [setTable_eq, cutShort_eq]

theorem rotated_table_open (hpc : a.pendingT ≠ a.closedT) (hco : a.closedT ≠ a.openT) :
    (rotated seq a).table a.pendingT =
      carryTable a.recs (a.table a.openT) (a.table a.pendingT) := by
  show ((cutShort a).setTable (cutShort a).pendingT (carryTable (cutShort a).recs
    ((cutShort a).table (cutShort a).openT) ((cutShort a).table (cutShort a).pendingT))).table _ = _
  rw [cutShort_pendingT, table_setTable_self, cutShort_recs, cutShort_openT,
    cutShort_table_ne hco.symm, cutShort_table_ne hpc]

theorem rotated_table_ne {t : TableId} (h : t ≠ a.pendingT) :
    (rotated seq a).table t = (cutShort a).table t := by
  show ((cutShort a).setTable (cutShort a).pendingT _).table _ = _
  exact table_setTable_ne (cutShort_pendingT a ▸ h)

/-- The table that was OPEN closes as it stands (R180). -/
theorem rotated_table_closed (hop : a.openT ≠ a.pendingT) (hco : a.closedT ≠ a.openT) :
    (rotated seq a).table a.openT = a.table a.openT :=
  (rotated_table_ne hop).trans (cutShort_table_ne hco.symm)

/-- The table that was CLOSED is cleared for the next period (R180). -/
theorem rotated_table_pending (hpc : a.pendingT ≠ a.closedT)
    (hclean : a.reporting = false → a.table a.closedT = Entry.blankTable) :
    (rotated seq a).table a.closedT = Entry.blankTable :=
  (rotated_table_ne hpc.symm).trans (cutShort_table_closed hclean)

end Rotation

/-! ### The closing report's cursor (R182) -/

/-- The report goes on at a later index, or ends with the CLOSED table cleared. -/
theorem cursorMoved_cases (i : Nat) (a : Accounts) :
    (∃ j, cursorMoved i a = { a with cursor := some j }) ∨
    cursorMoved i a =
      { a.setTable a.closedT Entry.blankTable with reporting := false, cursor := none } := by
  unfold cursorMoved
  split
  · next j _ _ => exact .inl ⟨j, rfl⟩
  · exact .inr rfl

/-! ### An increment given out (R188, R190) -/

/-- Every record and every OPEN entry takes its part. -/
def sharedOut (f : Int → AccRec → AccRec) (g : Int → Entry → Entry) (ps : List Int) (a : Accounts) :
    Accounts :=
  { a.setTable a.openT (List.zipWith g ps a.openTable) with recs := List.zipWith f ps a.recs }

/-- A record takes its part of a fuel increment (R190). -/
def chargeRec (x : Int) (r : AccRec) : AccRec := { r with fuel := accAdd r.fuel x }

/-- An OPEN entry takes its part of a fuel increment (R190). -/
def chargeEntry (x : Int) (e : Entry) : Entry := { e with fuel := accAdd e.fuel x }

theorem allocated_sharedOut (v : Int) (offSpec : Bool) (a : Accounts) : allocated v offSpec a =
    sharedOut (creditRec (offSpec && decide (v < 0))) (creditEntry (offSpec && decide (v < 0)))
      (parts v (siteTarget a) a.openTable) a := rfl

theorem charged_sharedOut (f : Nat) (a : Accounts) : charged f a =
    sharedOut chargeRec chargeEntry (charges f (positiveSum a) a.openTable) a := rfl

section SharedOut

variable {f : Int → AccRec → AccRec} {g : Int → Entry → Entry} {ps : List Int} {a : Accounts} {i : Nat}

theorem sharedOut_eq (f : Int → AccRec → AccRec) (g : Int → Entry → Entry) (ps : List Int)
    (a : Accounts) : sharedOut f g ps a =
      { a.setTable a.openT ((sharedOut f g ps a).table a.openT) with
        recs := (sharedOut f g ps a).recs } := by
  unfold sharedOut
  cases a.openT <;> rfl

theorem sharedOut_acc (hr : i < a.recs.length) (hp : i < ps.length) :
    (sharedOut f g ps a).acc i = f (ps.getD i 0) (a.acc i) := getD_zipWith f hp hr

theorem sharedOut_openTable : (sharedOut f g ps a).table a.openT = List.zipWith g ps a.openTable :=
  table_setTable_self (a := a)

theorem sharedOut_table_ne {t : TableId} (h : t ≠ a.openT) : (sharedOut f g ps a).table t = a.table t :=
  table_setTable_ne (a := a) h

theorem sharedOut_entry (ht : i < a.openTable.length) (hp : i < ps.length) :
    (sharedOut f g ps a).entry a.openT i = g (ps.getD i 0) (a.entry a.openT i) := by
  rw [Accounts.entry, sharedOut_openTable]
  exact getD_zipWith g hp ht

theorem sharedOut_entry_ne {t : TableId} (h : t ≠ a.openT) :
    (sharedOut f g ps a).entry t i = a.entry t i := by
  rw [Accounts.entry, sharedOut_table_ne h]
  rfl

end SharedOut

end Sys2Proof.Machine
end

section
/-! The Account Store's soundness in five parts (its records, its tables, the nominations, the closing report,
the increments that wait), what each part rests on, and that every act of the store keeps them. -/

namespace Sys2Proof.Machine

/-! ### The parts -/

/-- Records, chains and the free-index stack (R169, R170, R171). -/
structure RecordsSound (a : Accounts) : Prop where
  length : a.recs.length = 49
  holdingCode : (a.acc 0).code = 0
  holdingPresent : (a.acc 0).present = true
  chains : ChainsSound a
  nodup : a.stack.Nodup
  free : ∀ i ∈ a.stack, 1 ≤ i ∧ i ≤ 48 ∧ (a.acc i).code = 0

/-- The three tables and the roles on them (R176). -/
structure TablesSound (a : Accounts) : Prop where
  length : ∀ t, (a.table t).length = 49
  openPending : a.openT ≠ a.pendingT
  pendingClosed : a.pendingT ≠ a.closedT
  closedOpen : a.closedT ≠ a.openT

/-- An entry's nomination is within its account's rights (R173), and absent at a free index (R171). -/
def EntrySound (a : Accounts) (i : Nat) (e : Entry) : Prop :=
  WithinRights (a.acc i) e ∧ (i ∈ a.stack → e.nomination = none)

/-- The nominations for the open and the next period (R173). -/
def NominationsSound (a : Accounts) : Prop :=
  ∀ i < 49, EntrySound a i (a.entry a.openT i) ∧ EntrySound a i (a.entry a.pendingT i)

/-- The closing report: a cursor exactly while the CLOSED table reports, a CLEAN one cleared (R182). -/
structure ReportSound (a : Accounts) : Prop where
  cursor : a.reporting = true ↔ a.cursor ≠ none
  clean : a.reporting = false → a.table a.closedT = Entry.blankTable

/-- At most one increment of each kind waits (R187). -/
structure WaitsSound (a : Accounts) : Prop where
  metered : a.metered.length ≤ 1
  fuel : a.fuel.length ≤ 1

/-- The five parts. -/
structure PartsSound (a : Accounts) : Prop where
  records : RecordsSound a
  tables : TablesSound a
  nominations : NominationsSound a
  report : ReportSound a
  waits : WaitsSound a

theorem accountsSound_iff (a : Accounts) : AccountsSound a ↔ PartsSound a := by
  constructor
  · rintro ⟨hlen, h0, h1, h2, hop, hpc, hco, hcode, hpresent, hchains, hnodup, hfree, hrights, hcursor,
      hclean, hmetered, hfuel⟩
    refine ⟨⟨hlen, hcode, hpresent, hchains, hnodup, fun i hi => ?_⟩, ⟨fun t => ?_, hop, hpc, hco⟩,
      fun i hi => ?_, ⟨hcursor, hclean⟩, ⟨hmetered, hfuel⟩⟩
    · obtain ⟨hl, hu, hc, -, -⟩ := hfree i hi
      exact ⟨hl, hu, hc⟩
    · cases t
      · exact h0
      · exact h1
      · exact h2
    · obtain ⟨ho, hp⟩ := hrights i hi
      refine ⟨⟨ho, fun hs => ?_⟩, hp, fun hs => ?_⟩
      · obtain ⟨-, -, -, hno, -⟩ := hfree i hs
        exact hno
      · obtain ⟨-, -, -, -, hnp⟩ := hfree i hs
        exact hnp
  · rintro ⟨hr, ht, hn, hrep, hw⟩
    refine ⟨hr.length, ht.length .p0, ht.length .p1, ht.length .p2, ht.openPending, ht.pendingClosed,
      ht.closedOpen, hr.holdingCode, hr.holdingPresent, hr.chains, hr.nodup, fun i hi => ?_,
      fun i hi => ⟨(hn i hi).1.1, (hn i hi).2.1⟩, hrep.cursor, hrep.clean, hw.metered, hw.fuel⟩
    obtain ⟨hl, hu, hc⟩ := hr.free i hi
    obtain ⟨ho, hp⟩ := hn i (by omega)
    exact ⟨hl, hu, hc, ho.2 hi, hp.2 hi⟩

/-! ### What each part rests on -/

section Parts

variable {a c : Accounts}

/-- Records that agree in presence, code and link, under the same buckets and stack. -/
theorem RecordsSound.congr (h : RecordsSound a) (hlen : c.recs.length = a.recs.length)
    (hr : ∀ i < 49, (c.acc i).present = (a.acc i).present ∧ (c.acc i).code = (a.acc i).code ∧
      (c.acc i).link = (a.acc i).link)
    (hb : c.buckets = a.buckets) (hs : c.stack = a.stack) : RecordsSound c where
  length := hlen.trans h.length
  holdingCode := by
    obtain ⟨-, hcode, -⟩ := hr 0 (by decide)
    exact hcode.trans h.holdingCode
  holdingPresent := (hr 0 (by decide)).1.trans h.holdingPresent
  chains := h.chains.congr hr hb hs
  nodup := hs ▸ h.nodup
  free := fun i hi => by
    obtain ⟨hl, hu, hcode⟩ := h.free i (hs ▸ hi)
    obtain ⟨-, hkept, -⟩ := hr i (by omega)
    exact ⟨hl, hu, hkept.trans hcode⟩

/-- An act that leaves records, buckets and stack. -/
theorem RecordsSound.of_same (h : RecordsSound a) (hr : c.recs = a.recs) (hb : c.buckets = a.buckets)
    (hs : c.stack = a.stack) : RecordsSound c := by
  have hacc (i : Nat) : c.acc i = a.acc i := by rw [Accounts.acc, hr, Accounts.acc]
  exact h.congr (by rw [hr]) (fun i _ => by rw [hacc i]; exact ⟨rfl, rfl, rfl⟩) hb hs

/-- One record replaced by a record with the same presence, code and link. -/
theorem RecordsSound.setRec (h : RecordsSound a) {i : Nat} {r : AccRec} (hi : i < 49)
    (hkeys : r.present = (a.acc i).present ∧ r.code = (a.acc i).code ∧ r.link = (a.acc i).link)
    (hr : c.recs = a.recs.set i r) (hb : c.buckets = a.buckets) (hs : c.stack = a.stack) :
    RecordsSound c := by
  refine h.congr (by rw [hr, List.length_set]) (fun j _ => ?_) hb hs
  by_cases hj : j = i
  · rw [hj, acc_of_set_self hr (h.length.symm ▸ hi)]
    exact hkeys
  · rw [acc_of_set_ne hr hj]
    exact ⟨rfl, rfl, rfl⟩

/-- The same roles on tables of the same lengths. -/
theorem TablesSound.congr (h : TablesSound a) (hlen : ∀ t, (c.table t).length = (a.table t).length)
    (ho : c.openT = a.openT) (hp : c.pendingT = a.pendingT) (hc : c.closedT = a.closedT) :
    TablesSound c where
  length := fun t => (hlen t).trans (h.length t)
  openPending := by rw [ho, hp]; exact h.openPending
  pendingClosed := by rw [hp, hc]; exact h.pendingClosed
  closedOpen := by rw [hc, ho]; exact h.closedOpen

theorem EntrySound.of_none {i : Nat} {e : Entry} (h : e.nomination = none) : EntrySound a i e :=
  ⟨withinRights_of_none h, fun _ => h⟩

/-- An entry with the same nomination, of an account with the same rights that has not been freed. -/
theorem EntrySound.congr {i : Nat} {e d : Entry} (h : EntrySound a i e)
    (hi : (c.acc i).injRight = (a.acc i).injRight) (hw : (c.acc i).wdRight = (a.acc i).wdRight)
    (hs : i ∈ c.stack → i ∈ a.stack) (hn : d.nomination = e.nomination) : EntrySound c i d := by
  refine ⟨fun n hmem => ?_, fun hmem => hn.trans (h.2 (hs hmem))⟩
  rw [hi, hw]
  exact h.1 n (hn ▸ hmem)

/-- The same nominations of accounts with the same rights, none of them freed. -/
theorem NominationsSound.congr (h : NominationsSound a)
    (hr : ∀ i < 49, (c.acc i).injRight = (a.acc i).injRight ∧ (c.acc i).wdRight = (a.acc i).wdRight)
    (hs : c.stack = a.stack)
    (ho : ∀ i < 49, (c.entry c.openT i).nomination = (a.entry a.openT i).nomination)
    (hp : ∀ i < 49, (c.entry c.pendingT i).nomination = (a.entry a.pendingT i).nomination) :
    NominationsSound c := fun i hi =>
  ⟨(h i hi).1.congr (hr i hi).1 (hr i hi).2 (fun k => hs ▸ k) (ho i hi),
    (h i hi).2.congr (hr i hi).1 (hr i hi).2 (fun k => hs ▸ k) (hp i hi)⟩

theorem ReportSound.congr (h : ReportSound a) (hr : c.reporting = a.reporting)
    (hc : c.cursor = a.cursor) (ht : c.table c.closedT = a.table a.closedT) : ReportSound c where
  cursor := by rw [hr, hc]; exact h.cursor
  clean := fun k => ht.trans (h.clean (hr ▸ k))

theorem WaitsSound.congr (h : WaitsSound a) (hm : c.metered = a.metered) (hf : c.fuel = a.fuel) :
    WaitsSound c := ⟨hm ▸ h.metered, hf ▸ h.fuel⟩

/-- Only the timers, the sync state and the sequences may differ. -/
theorem PartsSound.withSync (h : PartsSound a) (sync : Sync) (openSeq closedSeq : Word16)
    (period grace : Timer) : PartsSound { a with
      sync := sync, openSeq := openSeq, closedSeq := closedSeq, period := period, grace := grace } where
  records := h.records.of_same rfl rfl rfl
  tables := h.tables.congr (fun t => by cases t <;> rfl) rfl rfl rfl
  nominations := h.nominations.congr (fun _ _ => ⟨rfl, rfl⟩) rfl (fun _ _ => by rfl) (fun _ _ => by rfl)
  report := h.report.congr rfl rfl (by rfl)
  waits := h.waits.congr rfl rfl

/-- Other increments wait. -/
theorem PartsSound.withWaits (h : PartsSound a) {metered : List Int} {fuel : List Nat}
    (hm : metered.length ≤ 1) (hf : fuel.length ≤ 1) :
    PartsSound { a with metered := metered, fuel := fuel } where
  records := h.records.of_same rfl rfl rfl
  tables := h.tables.congr (fun t => by cases t <;> rfl) rfl rfl rfl
  nominations := h.nominations.congr (fun _ _ => ⟨rfl, rfl⟩) rfl (fun _ _ => by rfl) (fun _ _ => by rfl)
  report := h.report.congr rfl rfl (by rfl)
  waits := ⟨hm, hf⟩

end Parts

/-! ### Account frames (R172, R174, R175) -/

section Frames

variable {a : Accounts} {i code : Nat}

/-- A shipper that lookup finds, in a sound store: its index is not the holding account's and not free. -/
theorem PartsSound.shipper (h : PartsSound a) (hl : shipperIndex a code = some i) :
    1 ≤ i ∧ i < 49 ∧ (a.acc i).present = true ∧ i ∉ a.stack := by
  unfold shipperIndex at hl
  split at hl
  · cases hl
  · next hc =>
    obtain ⟨h1, h48, hpresent, -, -⟩ := h.records.chains.lookup_some hc hl
    have h49 : i < 49 := by omega
    obtain ⟨-, hstack, -⟩ := h.records.chains
    exact ⟨h1, h49, hpresent, (hstack i h49 h1).1 hpresent⟩

theorem shipperIndex_of_ne (hc : code ≠ 0) : shipperIndex a code = lookup a code := if_neg hc

/-- One entry of the open or the next period replaced by a sound one. -/
theorem PartsSound.setEntry (h : PartsSound a) {t : TableId} (ht : t = a.openT ∨ t = a.pendingT)
    {e : Entry} (he : EntrySound a i e) : PartsSound (a.setEntry t i e) := by
  have entry_sound {u : TableId} (hu : ∀ j < 49, EntrySound a j (a.entry u j)) (j : Nat) (hj : j < 49) :
      EntrySound a j ((a.setEntry t i e).entry u j) := by
    by_cases hij : u = t ∧ j = i
    · obtain ⟨rfl, rfl⟩ := hij
      rw [entry_setEntry_self ((h.tables.length u).symm ▸ hj)]
      exact he
    · rw [entry_setEntry_ne (by tauto)]
      exact hu j hj
  have hclosed : a.closedT ≠ t := by
    rcases ht with rfl | rfl
    · exact h.tables.closedOpen
    · exact h.tables.pendingClosed.symm
  have closed_kept : (a.setEntry t i e).table a.closedT = a.table a.closedT := table_setEntry_ne hclosed
  have lengths (u : TableId) := table_setEntry_length (a := a) (t := t) (u := u) (i := i) (e := e)
  have open_sound := entry_sound fun j hj => (h.nominations j hj).1
  have pending_sound := entry_sound fun j hj => (h.nominations j hj).2
  rw [setEntry_eq] at closed_kept lengths open_sound pending_sound ⊢
  exact
    { records := h.records.of_same rfl rfl rfl
      tables := h.tables.congr lengths rfl rfl rfl
      nominations := fun j hj => ⟨open_sound j hj, pending_sound j hj⟩
      report := h.report.congr rfl rfl closed_kept
      waits := h.waits.congr rfl rfl }

/-- A found account's rights replaced, its OPEN and PENDING nominations clamped again (R172). -/
def rerighted (i : Nat) (r : AccRec) (a : Accounts) : Accounts :=
  (({ a with recs := a.recs.set i r }).setEntry a.openT i (reclamp r (a.entry a.openT i))).setEntry
    a.pendingT i (reclamp r (a.entry a.pendingT i))

theorem setupFound_rerighted (i injR wdR : Nat) (s : State) : setupFound i injR wdR s =
    (let a := s.accounts
    let r := { a.acc i with injRight := injR, wdRight := wdR }
    postAll (reclampEvents r (a.entry a.openT i) ++ reclampEvents r (a.entry a.pendingT i))
      (s.withAccounts (rerighted i r a))) := rfl

theorem rerighted_eq (i : Nat) (r : AccRec) (a : Accounts) : rerighted i r a = { a with
    recs := a.recs.set i r, p0 := (rerighted i r a).p0, p1 := (rerighted i r a).p1
    p2 := (rerighted i r a).p2 } := by
  unfold rerighted
  rw [setEntry_eq, setEntry_eq]

theorem rerighted_table_ne {r : AccRec} {t : TableId} (ho : t ≠ a.openT) (hp : t ≠ a.pendingT) :
    (rerighted i r a).table t = a.table t := (table_setEntry_ne hp).trans (table_setEntry_ne ho)

theorem rerighted_table_length (r : AccRec) (t : TableId) :
    ((rerighted i r a).table t).length = (a.table t).length :=
  table_setEntry_length.trans table_setEntry_length

theorem rerighted_entry_ne {r : AccRec} {t : TableId} {j : Nat} (h : j ≠ i) :
    (rerighted i r a).entry t j = a.entry t j :=
  (entry_setEntry_ne (.inr h)).trans (entry_setEntry_ne (.inr h))

theorem rerighted_entry_self {r : AccRec} {t : TableId} (hop : a.openT ≠ a.pendingT)
    (ht : t = a.openT ∨ t = a.pendingT) (hi : i < (a.table t).length) :
    (rerighted i r a).entry t i = reclamp r (a.entry t i) := by
  obtain rfl | rfl := ht
  · exact (entry_setEntry_ne (.inl hop)).trans (entry_setEntry_self hi)
  · exact entry_setEntry_self (table_setEntry_length.symm ▸ hi)

theorem PartsSound.rerighted (h : PartsSound a) {r : AccRec} (hi : i < 49) (hfree : i ∉ a.stack)
    (hr : r.present = (a.acc i).present ∧ r.code = (a.acc i).code ∧ r.link = (a.acc i).link) :
    PartsSound (rerighted i r a) := by
  have hrecs : (Machine.rerighted i r a).recs = a.recs.set i r := by rw [rerighted_eq]
  have hself : (Machine.rerighted i r a).acc i = r :=
    acc_of_set_self hrecs (h.records.length.symm ▸ hi)
  have hother {j : Nat} (hj : j ≠ i) : (Machine.rerighted i r a).acc j = a.acc j :=
    acc_of_set_ne hrecs hj
  have hstack : (Machine.rerighted i r a).stack = a.stack := by rw [rerighted_eq]
  have sound {t : TableId} (ht : t = a.openT ∨ t = a.pendingT) (j : Nat) (hj : j < 49)
      (he : EntrySound a j (a.entry t j)) :
      EntrySound (Machine.rerighted i r a) j ((Machine.rerighted i r a).entry t j) := by
    by_cases hji : j = i
    · subst hji
      rw [rerighted_entry_self h.tables.openPending ht ((h.tables.length t).symm ▸ hj)]
      exact ⟨hself.symm ▸ reclamp_within r _, fun k => absurd (hstack ▸ k) hfree⟩
    · rw [rerighted_entry_ne hji]
      exact he.congr (by rw [hother hji]) (by rw [hother hji]) (fun k => hstack ▸ k) rfl
  have hclosed : (Machine.rerighted i r a).table a.closedT = a.table a.closedT :=
    rerighted_table_ne h.tables.closedOpen h.tables.pendingClosed.symm
  have open_sound := fun j hj => sound (.inl rfl) j hj (h.nominations j hj).1
  have pending_sound := fun j hj => sound (.inr rfl) j hj (h.nominations j hj).2
  have hlen := rerighted_table_length (a := a) (i := i) r
  rw [rerighted_eq] at hclosed hlen open_sound pending_sound ⊢
  exact
    { records := h.records.setRec hi hr rfl rfl rfl
      tables := h.tables.congr hlen rfl rfl rfl
      nominations := fun j hj => ⟨open_sound j hj, pending_sound j hj⟩
      report := h.report.congr rfl rfl hclosed
      waits := h.waits.congr rfl rfl }

/-- A record replaced by one with the same keys and rights. -/
theorem PartsSound.setRec (h : PartsSound a) {r : AccRec} (hi : i < 49)
    (hkeys : r.present = (a.acc i).present ∧ r.code = (a.acc i).code ∧ r.link = (a.acc i).link)
    (hrights : r.injRight = (a.acc i).injRight ∧ r.wdRight = (a.acc i).wdRight) :
    PartsSound { a with recs := a.recs.set i r } where
  records := h.records.setRec hi hkeys rfl rfl rfl
  tables := h.tables.congr (fun t => by cases t <;> rfl) rfl rfl rfl
  nominations := by
    refine h.nominations.congr (fun j _ => ?_) rfl (fun _ _ => by rfl) (fun _ _ => by rfl)
    by_cases hj : j = i
    · rw [hj, acc_of_set_self rfl (h.records.length.symm ▸ hi)]
      exact hrights
    · rw [acc_of_set_ne rfl hj]
      exact ⟨rfl, rfl⟩
  report := h.report.congr rfl rfl (by rfl)
  waits := h.waits.congr rfl rfl

section NewAccount

variable {rest : List Nat} (injR wdR : Nat)

theorem newAccount_stack (i code injR wdR : Nat) (rest : List Nat) (a : Accounts) :
    (newAccount i code injR wdR rest a).stack = rest := by rw [newAccount_eq]

theorem RecordsSound.newAccount (h : RecordsSound a) (hs : a.stack = i :: rest) (hc : code ≠ 0)
    (hl : lookup a code = none) : RecordsSound (newAccount i code injR wdR rest a) := by
  obtain ⟨hi1, -, -⟩ := h.free i (hs ▸ List.mem_cons_self)
  obtain ⟨hout, hnodup⟩ := List.nodup_cons.1 (hs ▸ h.nodup)
  have hother {j : Nat} (hj : j ≠ i) := newAccount_acc_ne (code := code) (injR := injR) (wdR := wdR)
    (rest := rest) (a := a) hj
  obtain ⟨link, hzero⟩ := hother (j := 0) (by omega)
  exact
    { length := newAccount_recs_length.trans h.length
      holdingCode := by rw [hzero]; exact h.holdingCode
      holdingPresent := by rw [hzero]; exact h.holdingPresent
      chains := newAccount_chainsSound h.chains h.length hs h.nodup
        (fun j hj => ⟨(h.free j hj).1, (h.free j hj).2.1⟩) hc hl
      nodup := by rw [newAccount_stack]; exact hnodup
      free := fun j hj => by
        rw [newAccount_stack] at hj
        obtain ⟨h1, h48, hcode⟩ := h.free j (hs ▸ List.mem_cons_of_mem _ hj)
        obtain ⟨link, hacc⟩ := hother (j := j) fun e => hout (e ▸ hj)
        rw [hacc]
        exact ⟨h1, h48, hcode⟩ }

/-- A popped index had no nomination, and every other account keeps its rights. -/
theorem EntrySound.newAccount {j : Nat} {e : Entry} (he : EntrySound a j e) (hs : a.stack = i :: rest) :
    EntrySound (newAccount i code injR wdR rest a) j e := by
  by_cases hj : j = i
  · exact .of_none (he.2 (by rw [hs, hj]; exact List.mem_cons_self))
  · obtain ⟨link, hacc⟩ := newAccount_acc_ne (code := code) (injR := injR) (wdR := wdR) (rest := rest)
      (a := a) hj
    refine he.congr (by rw [hacc]) (by rw [hacc]) (fun k => ?_) rfl
    rw [newAccount_stack] at k
    rw [hs]
    exact List.mem_cons_of_mem _ k

/-- A new account at the top free index (R172). -/
theorem PartsSound.newAccount (h : PartsSound a) (hs : a.stack = i :: rest) (hc : code ≠ 0)
    (hl : lookup a code = none) : PartsSound (newAccount i code injR wdR rest a) := by
  have records := h.records.newAccount injR wdR hs hc hl
  have sound (j : Nat) (e : Entry) (he : EntrySound a j e) := he.newAccount (code := code) injR wdR hs
  rw [newAccount_eq] at sound records ⊢
  exact
    { records := records
      tables := h.tables.congr (fun t => by cases t <;> rfl) rfl rfl rfl
      nominations := fun j hj => ⟨sound j _ (h.nominations j hj).1, sound j _ (h.nominations j hj).2⟩
      report := h.report.congr rfl rfl (by rfl)
      waits := h.waits.congr rfl rfl }

end NewAccount

theorem any_threeEntries {p : Entry → Bool} :
    (threeEntries a i).any p = true ↔ ∃ t : TableId, p (a.entry t i) = true := by
  simp only [threeEntries, List.any_cons, List.any_nil, Bool.or_false, Bool.or_eq_true]
  constructor
  · rintro (h | h | h)
    · exact ⟨.p0, h⟩
    · exact ⟨.p1, h⟩
    · exact ⟨.p2, h⟩
  · rintro ⟨t, h⟩
    cases t
    · exact .inl h
    · exact .inr (.inl h)
    · exact .inr (.inr h)

/-- An account that may retire has no nomination (R175). -/
theorem nomination_of_retireReason (h : retireReason a i = none) (t : TableId) :
    (a.entry t i).nomination = none := by
  have hnot : ¬(threeEntries a i).any (fun e => e.nomination.isSome) = true := fun k => by
    rw [retireReason, if_pos k] at h
    cases h
  rw [any_threeEntries] at hnot
  simpa using fun k => hnot ⟨t, k⟩

/-- Every record but the retired one keeps its presence, code and rights (R175). -/
theorem retired_acc_ne {j : Nat} (hi : i < a.recs.length) (h1 : 1 ≤ i) (hj : j ≠ i) :
    ((retired i a).acc j).present = (a.acc j).present ∧ ((retired i a).acc j).code = (a.acc j).code ∧
    ((retired i a).acc j).injRight = (a.acc j).injRight ∧
    ((retired i a).acc j).wdRight = (a.acc j).wdRight := by
  obtain ⟨hacc, -, -⟩ := retired_parts i a hi h1
  rw [hacc j, if_neg hj]
  split
  · next h0 => subst h0; exact ⟨rfl, rfl, rfl, rfl⟩
  · exact ⟨rfl, rfl, rfl, rfl⟩

theorem RecordsSound.retired (h : RecordsSound a) (h1 : 1 ≤ i) (h49 : i < 49)
    (hpresent : (a.acc i).present = true) (hfree : i ∉ a.stack) : RecordsSound (retired i a) := by
  have hlen : i < a.recs.length := h.length.symm ▸ h49
  obtain ⟨hacc, -, hstack⟩ := retired_parts i a hlen h1
  obtain ⟨hpresent0, hcode0, -⟩ := retired_acc_ne hlen h1 (j := 0) (by omega)
  exact
    { length := (retired_recs_length i a).trans h.length
      holdingCode := hcode0.trans h.holdingCode
      holdingPresent := hpresent0.trans h.holdingPresent
      chains := retired_chainsSound h.chains h.length ⟨h1, by omega⟩ hpresent
      nodup := by rw [hstack]; exact List.nodup_cons.2 ⟨hfree, h.nodup⟩
      free := fun j hj => by
        by_cases hji : j = i
        · rw [hacc j, if_pos hji, hji]
          exact ⟨h1, by omega, rfl⟩
        · rw [hstack] at hj
          obtain ⟨hl1, hl48, hcode⟩ := h.free j ((List.mem_cons.1 hj).resolve_left hji)
          obtain ⟨-, hkept, -⟩ := retired_acc_ne hlen h1 hji
          exact ⟨hl1, hl48, hkept.trans hcode⟩ }

/-- A shipper without a nomination retired (R175). -/
theorem PartsSound.retired (h : PartsSound a) (hl : shipperIndex a code = some i)
    (hn : ∀ t, (a.entry t i).nomination = none) : PartsSound (retired i a) := by
  obtain ⟨h1, h49, hpresent, hfree⟩ := h.shipper hl
  have hlen : i < a.recs.length := h.records.length.symm ▸ h49
  obtain ⟨-, -, hstack⟩ := retired_parts i a hlen h1
  have nomination_kept (t : TableId) (j : Nat) :
      ((Machine.retired i a).entry t j).nomination = (a.entry t j).nomination := by rw [retired_entry]
  have sound (t : TableId) (j : Nat) (he : EntrySound a j (a.entry t j)) :
      EntrySound (Machine.retired i a) j ((Machine.retired i a).entry t j) := by
    by_cases hj : j = i
    · exact .of_none ((nomination_kept t j).trans (hj ▸ hn t))
    · obtain ⟨-, -, hinj, hwd⟩ := retired_acc_ne hlen h1 hj
      refine he.congr hinj hwd (fun k => ?_) (nomination_kept t j)
      rw [hstack] at k
      exact (List.mem_cons.1 k).resolve_left hj
  have clean (k : a.reporting = false) : (Machine.retired i a).table a.closedT = Entry.blankTable := by
    rw [retired_table, Accounts.entry, h.report.clean k, entry_blankTable]
    exact set_blankTable i
  exact
    { records := h.records.retired h1 h49 hpresent hfree
      tables := h.tables.congr (fun t => by rw [retired_table, List.length_set]) rfl rfl rfl
      nominations := fun j hj => ⟨sound _ j (h.nominations j hj).1, sound _ j (h.nominations j hj).2⟩
      report := ⟨h.report.cursor, clean⟩
      waits := h.waits.congr rfl rfl }

end Frames

/-! ### Periods (R180, R182) -/

section Periods

variable {a : Accounts}

/-- What is carried forward is clamped, and nothing is carried to a free index. -/
theorem EntrySound.carryEntry {i : Nat} {o n : Entry} (h : EntrySound a i n)
    (hfree : i ∈ a.stack → (a.acc i).code = 0) : EntrySound a i (carryEntry (a.acc i) o n) := by
  unfold Machine.carryEntry
  split
  · next hc =>
    refine ⟨withinRights_of_some rfl (clampRate_within _ _), fun k => ?_⟩
    simp [carries, isShipper, hfree k] at hc
  · exact h

theorem PartsSound.rotated (h : PartsSound a) (seq : Word16) : PartsSound (rotated seq a) := by
  have hopen := rotated_table_open (seq := seq) h.tables.pendingClosed h.tables.closedOpen
  have hclosed := rotated_table_closed (seq := seq) h.tables.openPending h.tables.closedOpen
  have hpending := rotated_table_pending (seq := seq) h.tables.pendingClosed h.report.clean
  have hlen (t : TableId) : ((Machine.rotated seq a).table t).length = 49 := by
    by_cases hp : t = a.pendingT
    · rw [hp, hopen, carryTable_length]
      exact h.tables.length _
    · rw [rotated_table_ne hp]
      by_cases hc : t = a.closedT
      · rw [hc, cutShort_table_closed h.report.clean]
        rfl
      · rw [cutShort_table_ne hc]
        exact h.tables.length t
  have open_sound (i : Nat) (hi : i < 49) :
      EntrySound a i ((Machine.rotated seq a).entry a.pendingT i) := by
    rw [Accounts.entry, hopen, carryTable_getD _ (by rw [h.tables.length, h.tables.length])]
    refine (h.nominations i hi).2.carryEntry fun k => ?_
    obtain ⟨-, -, hcode⟩ := h.records.free i k
    exact hcode
  have pending_sound (i : Nat) : EntrySound a i ((Machine.rotated seq a).entry a.closedT i) := by
    rw [Accounts.entry, hpending, entry_blankTable]
    exact .of_none rfl
  rw [rotated_eq] at hlen open_sound pending_sound ⊢
  exact
    { records := h.records.of_same rfl rfl rfl
      tables := ⟨hlen, h.tables.pendingClosed, h.tables.closedOpen, h.tables.openPending⟩
      nominations := fun i hi => ⟨open_sound i hi, pending_sound i⟩
      report := ⟨by simp, fun k => by cases k⟩
      waits := h.waits.congr rfl rfl }

theorem PartsSound.cursorMoved (h : PartsSound a) {i : Nat} (hc : a.cursor = some i) :
    PartsSound (cursorMoved i a) := by
  obtain ⟨j, hmoved⟩ | hmoved := cursorMoved_cases i a
  · have hreporting : a.reporting = true := h.report.cursor.2 (by simp [hc])
    rw [hmoved]
    exact
      { records := h.records.of_same rfl rfl rfl
        tables := h.tables.congr (fun t => by cases t <;> rfl) rfl rfl rfl
        nominations := h.nominations.congr (fun _ _ => ⟨rfl, rfl⟩) rfl (fun _ _ => by rfl)
          (fun _ _ => by rfl)
        report := ⟨by simp [hreporting], fun k => absurd (hreporting.symm.trans k) (by decide)⟩
        waits := h.waits.congr rfl rfl }
  · have hself : (a.setTable a.closedT Entry.blankTable).table a.closedT = Entry.blankTable :=
      table_setTable_self
    have hother {t : TableId} (ht : t ≠ a.closedT) :
        (a.setTable a.closedT Entry.blankTable).table t = a.table t := table_setTable_ne ht
    have hlen (t : TableId) : ((a.setTable a.closedT Entry.blankTable).table t).length =
        (a.table t).length := by
      by_cases ht : t = a.closedT
      · rw [ht, hself, h.tables.length]
        rfl
      · rw [hother ht]
    have hopen := hother h.tables.closedOpen.symm
    have hpending := hother h.tables.pendingClosed
    rw [hmoved]
    rw [setTable_eq] at hself hlen hopen hpending ⊢
    exact
      { records := h.records.of_same rfl rfl rfl
        tables := h.tables.congr hlen rfl rfl rfl
        nominations := h.nominations.congr (fun _ _ => ⟨rfl, rfl⟩) rfl
          (fun i _ => congrArg (fun l : List Entry => (l.getD i Entry.blank).nomination) hopen)
          (fun i _ => congrArg (fun l : List Entry => (l.getD i Entry.blank).nomination) hpending)
        report := ⟨by simp, fun _ => hself⟩
        waits := h.waits.congr rfl rfl }

end Periods

/-! ### Increments (R188, R190) -/

section Increments

variable {a : Accounts}

/-- Giving an increment out changes totals and columns alone. -/
theorem PartsSound.sharedOut (h : PartsSound a) {f : Int → AccRec → AccRec} {g : Int → Entry → Entry}
    {ps : List Int} (hps : ps.length = 49)
    (hf : ∀ x r, (f x r).present = r.present ∧ (f x r).code = r.code ∧ (f x r).link = r.link)
    (hrights : ∀ x r, (f x r).injRight = r.injRight ∧ (f x r).wdRight = r.wdRight)
    (hg : ∀ x e, (g x e).nomination = e.nomination) : PartsSound (sharedOut f g ps a) := by
  have hlenOpen : a.openTable.length = 49 := h.tables.length a.openT
  have hacc (i : Nat) (hi : i < 49) :
      (Machine.sharedOut f g ps a).acc i = f (ps.getD i 0) (a.acc i) :=
    sharedOut_acc (h.records.length.symm ▸ hi) (hps.symm ▸ hi)
  have hopen (i : Nat) (hi : i < 49) : ((Machine.sharedOut f g ps a).entry a.openT i).nomination =
      (a.entry a.openT i).nomination := by
    rw [sharedOut_entry (hlenOpen.symm ▸ hi) (hps.symm ▸ hi)]
    exact hg _ _
  have hpending (i : Nat) : ((Machine.sharedOut f g ps a).entry a.pendingT i).nomination =
      (a.entry a.pendingT i).nomination := by
    rw [sharedOut_entry_ne h.tables.openPending.symm]
  have hclosed : (Machine.sharedOut f g ps a).table a.closedT = a.table a.closedT :=
    sharedOut_table_ne h.tables.closedOpen
  have hlen (t : TableId) : ((Machine.sharedOut f g ps a).table t).length = (a.table t).length := by
    by_cases ht : t = a.openT
    · rw [ht, sharedOut_openTable, List.length_zipWith, hps, hlenOpen, h.tables.length]
      rfl
    · rw [sharedOut_table_ne ht]
  have hrecs : (Machine.sharedOut f g ps a).recs.length = a.recs.length := by
    show (List.zipWith f ps a.recs).length = _
    rw [List.length_zipWith, hps, h.records.length]
    rfl
  rw [sharedOut_eq, setTable_eq] at hacc hopen hpending hclosed hlen hrecs ⊢
  exact
    { records := h.records.congr hrecs (fun i hi => by rw [hacc i hi]; exact hf _ _) rfl rfl
      tables := h.tables.congr hlen rfl rfl rfl
      nominations := h.nominations.congr (fun i hi => by rw [hacc i hi]; exact hrights _ _) rfl hopen
        fun i _ => hpending i
      report := h.report.congr rfl rfl hclosed
      waits := h.waits.congr rfl rfl }

theorem PartsSound.allocated (h : PartsSound a) (v : Int) (offSpec : Bool) :
    PartsSound (allocated v offSpec a) :=
  h.sharedOut ((parts_length _ _ _).trans (h.tables.length a.openT)) (fun _ _ => ⟨rfl, rfl, rfl⟩)
    (fun _ _ => ⟨rfl, rfl⟩) fun _ _ => rfl

theorem PartsSound.charged (h : PartsSound a) (f : Nat) : PartsSound (charged f a) :=
  h.sharedOut ((charges_length _ _ _).trans (h.tables.length a.openT)) (fun _ _ => ⟨rfl, rfl, rfl⟩)
    (fun _ _ => ⟨rfl, rfl⟩) fun _ _ => rfl

end Increments

end Sys2Proof.Machine
end

section
/-! Every command keeps the Account Store's record sound: its own frames, timers and increments act by act,
METER_INTERVAL with what it takes first, the two entries to reset; no other command touches the store. -/

namespace Sys2Proof.Machine

/-! ### The frames (R172, R174, R175, R178, R183) -/

section Frames

variable {s : State}

theorem PartsSound.rotate (h : PartsSound s.accounts) (seq : Word16) :
    PartsSound (rotate seq s).accounts := by
  rw [Machine.rotate, postAll_accounts]
  exact h.rotated seq

theorem PartsSound.marked (h : PartsSound s.accounts) (elapsed : Nat) :
    PartsSound (marked elapsed s).accounts := h.withSync _ _ _ _ _

theorem PartsSound.markBy (h : PartsSound s.accounts) (seq : Word16) (elapsed : Nat) :
    PartsSound (markBy seq elapsed s).accounts := by
  simp only [Machine.markBy]
  split
  · exact h.withSync _ _ _ _ _
  · split
    · exact h.marked elapsed
    · split
      · exact (h.rotate seq).marked elapsed
      · split
        · refine PartsSound.marked ?_ elapsed
          rw [post_accounts]
          exact h.rotate seq
        · exact h

/-- NOMINATE places in the OPEN or the PENDING table (R183). -/
theorem nominateTable_role {a : Accounts} {seq : Word16} {t : TableId}
    (h : nominateTable a seq = some t) : t = a.openT ∨ t = a.pendingT := by
  unfold nominateTable at h
  split at h
  · cases h; exact .inl rfl
  · split at h <;> cases h
    exact .inr rfl

theorem PartsSound.nominateBy (h : PartsSound s.accounts) (seq : Word16) (code : Nat) (rate : Int) :
    PartsSound (nominateBy seq code rate s).accounts := by
  unfold Machine.nominateBy
  split
  · rwa [post_accounts]
  · split
    · rwa [post_accounts]
    · next i hi =>
      split
      · rwa [post_accounts]
      · next t ht =>
        obtain ⟨-, -, -, hfree⟩ := h.shipper hi
        rw [postAll_accounts]
        exact h.setEntry (nominateTable_role ht) ⟨placed_within _ _ _, fun k => absurd k hfree⟩

theorem PartsSound.setupBy (h : PartsSound s.accounts) (code injR wdR : Nat) :
    PartsSound (setupBy code injR wdR s).accounts := by
  unfold Machine.setupBy
  split
  · rwa [post_accounts]
  · next hc =>
    split
    · next i hi =>
      obtain ⟨-, h49, -, hfree⟩ := h.shipper ((shipperIndex_of_ne hc).trans hi)
      rw [setupFound_rerighted, postAll_accounts]
      exact h.rerighted h49 hfree ⟨rfl, rfl, rfl⟩
    · next hl =>
      split
      · rwa [post_accounts]
      · next i rest hs => exact h.newAccount injR wdR hs hc hl

theorem PartsSound.balanceBy (h : PartsSound s.accounts) (code : Nat) (amount : Int) :
    PartsSound (balanceBy code amount s).accounts := by
  unfold Machine.balanceBy
  split
  · rwa [post_accounts]
  · next i hi =>
    obtain ⟨-, h49, -⟩ := h.shipper hi
    exact h.setRec h49 ⟨rfl, rfl, rfl⟩ ⟨rfl, rfl⟩

theorem PartsSound.retireBy (h : PartsSound s.accounts) (code : Nat) :
    PartsSound (retireBy code s).accounts := by
  unfold Machine.retireBy
  split
  · rwa [post_accounts]
  · next i hi =>
    split
    · rwa [post_accounts]
    · next hr => exact h.retired hi (nomination_of_retireReason hr)

/-- A frame taken from the buffers, and what the store then does. -/
theorem PartsSound.takeBy (h : PartsSound s.accounts) (c : Consumer)
    {act : RxFrame → Option (State → State)}
    (ha : ∀ f g t, act f = some g → PartsSound t.accounts → PartsSound (g t).accounts) :
    PartsSound (takeBy c s act).accounts :=
  takeBy_keeps (fun t => PartsSound t.accounts) c s act h fun f _ g _ hg => ha f g _ hg h

end Frames

/-! ### Timers, the closing report and increments (R179, R182, R187) -/

section Acts

variable {s : State}

theorem PartsSound.admitClosing (h : PartsSound s.accounts) : PartsSound (admitClosing s).accounts := by
  refine whenActive_keeps (fun t => PartsSound t.accounts) s _ h fun _ => ?_
  split
  · exact h
  · next i hi =>
    split
    · exact h.cursorMoved hi
    · exact h

theorem PartsSound.takeMetered (h : PartsSound s.accounts) : PartsSound (takeMetered s).accounts := by
  refine whenActive_keeps (fun t => PartsSound t.accounts) s _ h fun _ => ?_
  split
  · exact h
  · next v rest hm =>
    have hwaits := h.waits.metered
    rw [hm] at hwaits
    have hrest : rest.length ≤ 1 := Nat.le_of_succ_le hwaits
    exact (h.withWaits hrest h.waits.fuel).allocated v _

theorem PartsSound.takeFuel (h : PartsSound s.accounts) : PartsSound (takeFuel s).accounts := by
  refine whenActive_keeps (fun t => PartsSound t.accounts) s _ h fun _ => ?_
  split
  · exact h
  · next f rest hf =>
    have hwaits := h.waits.fuel
    rw [hf] at hwaits
    have hrest : rest.length ≤ 1 := Nat.le_of_succ_le hwaits
    exact (h.withWaits h.waits.metered hrest).charged f

theorem PartsSound.periodExpiry (h : PartsSound s.accounts) : PartsSound (periodExpiry s).accounts := by
  refine whenActive_keeps (fun t => PartsSound t.accounts) s _ h fun _ => ?_
  split
  · exact h.withSync _ _ _ _ _
  · exact h

theorem PartsSound.graceExpiry (h : PartsSound s.accounts) : PartsSound (graceExpiry s).accounts := by
  refine whenActive_keeps (fun t => PartsSound t.accounts) s _ h fun _ => ?_
  split
  · rw [ownClockRotation, post_accounts]
    exact (h.rotate _).withSync _ _ _ _ _
  · exact h

/-- What waits before an expiry is given out first (R187, log 25). -/
theorem PartsSound.settle (h : PartsSound s.accounts) : PartsSound (settle s).accounts := by
  refine settleFuel_induct PartsSound _ ?_ fun _ f k => k.charged f
  have metered : PartsSound (settleMetered (takeEntries s)).accounts := by
    refine settleMetered_induct PartsSound _ ?_ fun _ v k => k.allocated v _
    rw [takeEntries_accounts]
    exact h.withWaits (Nat.zero_le 1) h.waits.fuel
  exact metered.withWaits metered.waits.metered (Nat.zero_le 1)

theorem PartsSound.formIncrements (h : PartsSound s.accounts) (hm : s.accounts.metered = [])
    (hf : s.accounts.fuel = []) : PartsSound (formIncrements s).accounts := by
  obtain ⟨-, hmetered, hfuel⟩ := formIncrements_waits hm hf
  rw [formIncrements_of_empty hm hf] at hmetered hfuel ⊢
  simp only [postAll_accounts] at hmetered hfuel ⊢
  exact h.withWaits hmetered hfuel

theorem PartsSound.interval (h : PartsSound s.accounts) : PartsSound (interval s).accounts := by
  refine whenActive_keeps (fun t => PartsSound t.accounts) s _ h fun _ => ?_
  split
  · obtain ⟨-, hm, hf⟩ := settle_waits s
    exact h.settle.formIncrements hm hf
  · exact h

/-- A STATUS with the duplicate mark may put the store at reset (R191, R209); no other touches it. -/
theorem PartsSound.takeStatus (h : PartsSound s.accounts) : PartsSound (takeStatus s).accounts := by
  refine h.takeBy _ fun f g t hg ht => ?_
  split at hg <;> cases hg
  split
  · unfold takeDuplicate
    split
    · exact (accountsSound_iff _).1 accountsSound_reset
    · rwa [post_accounts]
  · have kept (address : Nat) (fields : StatusFields) :
        (takePeerStatus address fields t).accounts = t.accounts :=
      takePeerStatus_keeps address fields t .accounts (by decide)
    rwa [kept]

end Acts

/-! ### Every command -/

theorem exec_partsSound {c : Instr} {s t : State} (h : PartsSound s.accounts)
    (hx : exec c s = .next t) : PartsSound t.accounts := by
  cases c with
  | reset => cases hx; exact (accountsSound_iff _).1 accountsSound_reset
  | statusTake => cases hx; exact h.takeStatus
  | mark =>
    cases hx
    refine h.takeBy _ fun f g t hg ht => ?_
    split at hg <;> cases hg
    exact ht.markBy _ _
  | nominate =>
    cases hx
    refine h.takeBy _ fun f g t hg ht => ?_
    split at hg <;> cases hg
    exact ht.nominateBy _ _ _
  | setup =>
    cases hx
    refine h.takeBy _ fun f g t hg ht => ?_
    split at hg <;> cases hg
    exact ht.setupBy _ _ _
  | balance =>
    cases hx
    refine h.takeBy _ fun f g t hg ht => ?_
    split at hg <;> cases hg
    exact ht.balanceBy _ _
  | retire =>
    cases hx
    refine h.takeBy _ fun f g t hg ht => ?_
    split at hg <;> cases hg
    exact ht.retireBy _
  | closingReportAdmission => cases hx; exact h.admitClosing
  | meterInterval => cases hx; exact h.interval
  | accountIncrementTake => cases hx; exact h.takeMetered
  | fuelIncrementTake => cases hx; exact h.takeFuel
  | periodTimerExpiry => cases hx; exact h.periodExpiry
  | graceTimerExpiry => cases hx; exact h.graceExpiry
  | _ =>
    have kept : t.accounts = s.accounts := exec_keeps _ hx .accounts (by simp [touches])
    rwa [kept]

/-- Settles O58: the store's soundness in its five parts (`accountsSound_iff`), kept by every command
(`exec_partsSound`). -/
theorem stepsKeepNominationsWithinRights : Obligations.StepsKeepNominationsWithinRights := by
  intro s t h hstep
  obtain rfl | ⟨c, rest, -, hx⟩ := step_next hstep
  · exact h
  · rw [accountsSound_iff] at h ⊢
    exact exec_partsSound (s := s.withPending rest) h hx

end Sys2Proof.Machine
end

section
/-! The account frames one by one: SETUP (R172), BALANCE (R174), RETIRE (R175) and NOMINATE (R183), each
refused with its reason or taken. -/

namespace Sys2Proof.Machine

/-! ### The frame taken (R29) -/

section Taken

variable {f : RxFrame} {rest : List RxFrame} {s : State} {code : Nat}

theorem takeSetup_frame {injR wdR : Nat} (ha : s.active = true)
    (hf : takeFrame .accountStore s.link.buffers = some (f, rest)) (hb : f.body = .setup code injR wdR) :
    takeSetup s = setupBy code injR wdR (s.withLink { s.link with buffers := rest }) :=
  takeBy_some _ s _ f rest _ ha hf (by simp only [hb])

theorem takeBalance_frame {amount : Int} (ha : s.active = true)
    (hf : takeFrame .accountStore s.link.buffers = some (f, rest)) (hb : f.body = .balance code amount) :
    takeBalance s = balanceBy code amount (s.withLink { s.link with buffers := rest }) :=
  takeBy_some _ s _ f rest _ ha hf (by simp only [hb])

theorem takeRetire_frame (ha : s.active = true)
    (hf : takeFrame .accountStore s.link.buffers = some (f, rest)) (hb : f.body = .retire code) :
    takeRetire s = retireBy code (s.withLink { s.link with buffers := rest }) :=
  takeBy_some _ s _ f rest _ ha hf (by simp only [hb])

theorem takeNominate_frame {seq : Word16} {rate : Int} (ha : s.active = true)
    (hf : takeFrame .accountStore s.link.buffers = some (f, rest)) (hb : f.body = .nominate seq code rate) :
    takeNominate s = nominateBy seq code rate (s.withLink { s.link with buffers := rest }) :=
  takeBy_some _ s _ f rest _ ha hf (by simp only [hb])

theorem takeMark_frame {seq : Word16} {elapsed : Nat} (ha : s.active = true)
    (hf : takeFrame .accountStore s.link.buffers = some (f, rest)) (hb : f.body = .mark seq elapsed) :
    takeMark s = markBy seq elapsed (s.withLink { s.link with buffers := rest }) :=
  takeBy_some _ s _ f rest _ ha hf (by simp only [hb])

end Taken

theorem shipperIndex_none {a : Accounts} {code : Nat} (h : code = 0 ∨ lookup a code = none) :
    shipperIndex a code = none := by
  unfold shipperIndex
  split
  · rfl
  · next hc => exact h.resolve_left hc

/-! ### SETUP (R172) -/

section Setup

variable {s : State} {code injR wdR i : Nat}

theorem setupBy_zero : setupBy 0 injR wdR s = post .acctFull 0 s := if_pos rfl

theorem setupBy_full (hc : code ≠ 0) (hl : lookup s.accounts code = none) (hs : s.accounts.stack = []) :
    setupBy code injR wdR s = post .acctFull code s := by
  rw [setupBy, if_neg hc]
  simp only [hl, hs]

theorem setupBy_new {free : List Nat} (hc : code ≠ 0) (hl : lookup s.accounts code = none)
    (hs : s.accounts.stack = i :: free) : setupBy code injR wdR s =
      s.withAccounts (newAccount i code injR wdR free s.accounts) := by
  rw [setupBy, if_neg hc]
  simp only [hl, hs]

theorem setupBy_found (hc : code ≠ 0) (hl : lookup s.accounts code = some i) :
    setupBy code injR wdR s = setupFound i injR wdR s := by
  rw [setupBy, if_neg hc]
  simp only [hl]

/-- An empty bucket takes the new index as its head (R170). -/
theorem newAccount_empty {free : List Nat} {a : Accounts}
    (hb : a.buckets.getD (code % 16) none = none) : newAccount i code injR wdR free a = { a with
      stack := free, recs := a.recs.set i (freshRec code injR wdR)
      buckets := a.buckets.set (code % 16) (some i) } := by
  have hclaimed : (claimed i code injR wdR free a).buckets.getD (bucketOf code) none = none := hb
  rw [newAccount_claimed, appendChain, hclaimed]
  rfl

/-- A chain takes the new index at its end (R170). -/
theorem newAccount_chained {free : List Nat} {head : Nat} {a : Accounts}
    (hb : a.buckets.getD (code % 16) none = some head) : newAccount i code injR wdR free a =
      (let made := a.recs.set i (freshRec code injR wdR)
      let last := chainEnd made 48 head
      { a with
        stack := free
        recs := made.set last { made.getD last AccRec.blank with link := some i } }) := by
  have hclaimed : (claimed i code injR wdR free a).buckets.getD (bucketOf code) none = some head := hb
  rw [newAccount_claimed, appendChain, hclaimed]
  rfl

theorem reclampEvents_none {r : AccRec} {e : Entry} (h : e.nomination = none) :
    reclampEvents r e = [] := by
  simp only [reclampEvents, h]

theorem reclampEvents_some {r : AccRec} {e : Entry} {n : Int} (h : e.nomination = some n) :
    reclampEvents r e = if max (-(r.wdRight : Int)) (min r.injRight n) = n then []
      else [(.nomCurtailed, r.code)] := by
  simp only [reclampEvents, h, curtailEvents, clampRate_eq]

end Setup

/-- Settles O47: `setupBy` by its branches; a new account by its bucket, a found one by the entries of
`rerighted`. -/
theorem setupMakesOrChangesAnAccount : Obligations.SetupMakesOrChangesAnAccount := by
  intro code injR wdR f rest s ha hf hb taken a b
  have run : exec .setup s = .next (setupBy code injR wdR taken) :=
    congrArg Host.Outcome.next (takeSetup_frame ha hf hb)
  rw [run]
  refine ⟨fun hc => ?zero, fun hc hl hs => ?full, fun i free hc hl hs => ?new, fun i hc hl hop => ?found⟩
  case zero =>
    subst hc
    exact congrArg Host.Outcome.next setupBy_zero
  case full => exact congrArg Host.Outcome.next (setupBy_full (s := taken) hc hl hs)
  case new =>
    intro made
    rw [setupBy_new (s := taken) hc hl hs]
    refine ⟨fun hempty => ?_, fun head hhead => ?_⟩
    · rw [newAccount_empty hempty]
      rfl
    · intro last
      rw [newAccount_chained hhead]
      rfl
  case found =>
    have found : setupBy code injR wdR taken = setupFound i injR wdR taken := setupBy_found hc hl
    have accounts : (setupFound i injR wdR taken).accounts =
        rerighted i { a.acc i with injRight := injR, wdRight := wdR } a := by
      rw [setupFound_rerighted, postAll_accounts]
      rfl
    rw [found]
    refine ⟨_, rfl, ?recs, fun x j h => ?others, fun x hx hi => ?clamped, ?frame, ?link, ?events,
      found ▸ ?keeps⟩
    case recs => rw [accounts, rerighted_eq]
    case others =>
      rw [accounts]
      obtain hj | ⟨-, ho, hp⟩ := h
      · exact rerighted_entry_ne hj
      · rw [Accounts.entry, rerighted_table_ne ho hp]
        rfl
    case clamped =>
      rw [accounts, rerighted_entry_self hop hx hi]
      cases hn : (a.entry x i).nomination with
      | none => rw [reclamp_none hn]
      | some n => rw [reclamp_some hn, clampRate_eq]
    case frame => rw [accounts, rerighted_eq]
    case link => rw [setupFound_rerighted, postAll_link]; rfl
    case events =>
      rw [setupFound_rerighted]
      refine (postAll_events_congr _ s (taken.withAccounts _) rfl rfl).trans ?_
      congr 3
      · cases hn : (a.entry a.openT i).nomination with
        | none => exact reclampEvents_none hn
        | some n => exact reclampEvents_some hn
      · cases hn : (a.entry a.pendingT i).nomination with
        | none => exact reclampEvents_none hn
        | some n => exact reclampEvents_some hn
    case keeps =>
      have taken_keeps : KeepsAllBut [.link, .accounts, .events] s taken :=
        (withLink_keeps s _).mono (by decide)
      exact taken_keeps.then ((setupBy_keeps code injR wdR taken).mono (by decide))

/-! ### BALANCE (R174) -/

/-- Settles O48: `balanceBy` with the index that lookup finds, and without one. -/
theorem balanceReplacesTheOpeningBalance : Obligations.BalanceReplacesTheOpeningBalance := by
  intro code amount f rest s ha hf hb taken
  have run : exec .balance s = .next (balanceBy code amount taken) :=
    congrArg Host.Outcome.next (takeBalance_frame ha hf hb)
  rw [run]
  refine ⟨fun i hc hl => ?found, fun h => ?refused⟩
  case found =>
    have index : shipperIndex taken.accounts code = some i := (shipperIndex_of_ne hc).trans hl
    simp only [balanceBy, index]
    rfl
  case refused =>
    have index : shipperIndex taken.accounts code = none := shipperIndex_none h
    simp only [balanceBy, index]

/-! ### RETIRE (R175) -/

section Retire

variable {a : Accounts} {s : State} {code i reason : Nat}

theorem any_nomination_iff : (threeEntries a i).any (fun e => e.nomination.isSome) = true ↔
    ∃ t : TableId, (a.entry t i).nomination ≠ none := by
  simp only [any_threeEntries, Option.isSome_iff_ne_none]

theorem any_column_iff : (threeEntries a i).any hasColumn = true ↔ ∃ t : TableId,
    (a.entry t i).injected ≠ 0 ∨ (a.entry t i).withdrawn ≠ 0 ∨ (a.entry t i).fuel ≠ 0 ∨
      (a.entry t i).offSpec ≠ 0 := by
  simp only [any_threeEntries, hasColumn, decide_eq_true_eq]

theorem retireReason_nominated (h : (threeEntries a i).any (fun e => e.nomination.isSome) = true) :
    retireReason a i = some 2 := if_pos h

theorem retireReason_column (hn : ¬(threeEntries a i).any (fun e => e.nomination.isSome) = true)
    (h : (threeEntries a i).any hasColumn = true) : retireReason a i = some 3 := by
  rw [retireReason, if_neg hn, if_pos h]

theorem retireReason_held (hn : ¬(threeEntries a i).any (fun e => e.nomination.isSome) = true)
    (hc : ¬(threeEntries a i).any hasColumn = true) (h : inventory (a.acc i) ≠ 0) :
    retireReason a i = some 4 := by
  rw [retireReason, if_neg hn, if_neg hc, if_pos h]

theorem retireReason_none (hn : ¬(threeEntries a i).any (fun e => e.nomination.isSome) = true)
    (hc : ¬(threeEntries a i).any hasColumn = true) (h : ¬inventory (a.acc i) ≠ 0) :
    retireReason a i = none := by
  rw [retireReason, if_neg hn, if_neg hc, if_neg h]

theorem retireBy_unknown (hi : shipperIndex s.accounts code = none) :
    retireBy code s = post .retireRefused 1 s := by
  simp only [retireBy, hi]

theorem retireBy_refused (hi : shipperIndex s.accounts code = some i)
    (hr : retireReason s.accounts i = some reason) :
    retireBy code s = post .retireRefused reason s := by
  simp only [retireBy, hi, hr]

theorem retireBy_retired (hi : shipperIndex s.accounts code = some i)
    (hr : retireReason s.accounts i = none) :
    retireBy code s = s.withAccounts (retired i s.accounts) := by
  simp only [retireBy, hi, hr]

end Retire

/-- Settles O49: the reason of the first check that fails, else the parts of `retired`. -/
theorem retireChecksThenFreesTheAccount : Obligations.RetireChecksThenFreesTheAccount := by
  intro code f rest s ha hf hb taken a
  have run : exec .retire s = .next (retireBy code taken) :=
    congrArg Host.Outcome.next (takeRetire_frame ha hf hb)
  rw [run]
  refine ⟨fun h => congrArg Host.Outcome.next (retireBy_unknown (s := taken) (shipperIndex_none h)),
    fun i hc hl => ?_⟩
  intro nominated columns held
  have index : shipperIndex taken.accounts code = some i := (shipperIndex_of_ne hc).trans hl
  have refused {reason : Nat} (hr : retireReason a i = some reason) :
      (Host.Outcome.next (retireBy code taken) : Host.Outcome State Fault Refusal) =
        .next (post .retireRefused reason taken) :=
    congrArg Host.Outcome.next (retireBy_refused index hr)
  refine ⟨fun hn => refused (retireReason_nominated (any_nomination_iff.2 hn)),
    fun hn hcol => refused (retireReason_column (any_nomination_iff.not.2 hn) (any_column_iff.2 hcol)),
    fun hn hcol hh => refused (retireReason_held (any_nomination_iff.not.2 hn)
      (any_column_iff.not.2 hcol) hh),
    fun hn hcol hh hi0 hlen => ?freed⟩
  case freed =>
    have freed : retireBy code taken = taken.withAccounts (retired i a) :=
      retireBy_retired index
        (retireReason_none (any_nomination_iff.not.2 hn) (any_column_iff.not.2 hcol) hh)
    obtain ⟨hacc, hbuckets, hstack⟩ := retired_parts i a hlen (Nat.pos_of_ne_zero hi0)
    have zero := (hacc 0).trans (if_neg (Ne.symm hi0))
    rw [if_pos rfl] at zero
    rw [freed]
    refine ⟨_, rfl, (hacc i).trans (if_pos rfl), ?_, ?_, ?_, ?_, ?_, fun j hj0 hji => ?_, hbuckets, hstack,
      fun x j => retired_entry i a x j, rfl, rfl, ?keeps⟩
    · exact congrArg AccRec.net zero
    · exact congrArg AccRec.fuel zero
    · exact congrArg AccRec.offSpec zero
    · exact (congrArg AccRec.present zero).trans rfl
    · exact (congrArg AccRec.code zero).trans rfl
    · exact (hacc j).trans ((if_neg hji).trans (if_neg hj0))
    · have taken_keeps : KeepsAllBut [.link, .accounts] s taken :=
        (withLink_keeps s _).mono (by decide)
      exact taken_keeps.then ((withAccounts_keeps taken _).mono (by decide))

/-! ### NOMINATE (R183) -/

section Nominate

variable {a : Accounts} {s : State} {seq : Word16} {code i : Nat} {rate : Int}

theorem seqDistance_eq_zero (p q : Word16) : seqDistance p q = 0 ↔ p = q := by
  unfold seqDistance
  bv_omega

theorem seqDistance_eq_one (p q : Word16) : seqDistance p q = 1 ↔ p = q + 1 := by
  unfold seqDistance
  bv_omega

theorem nominateTable_other (h0 : seq ≠ a.openSeq) (h1 : seq ≠ a.openSeq + 1) :
    nominateTable a seq = none := by
  rw [nominateTable, if_neg ((seqDistance_eq_zero _ _).not.2 h0),
    if_neg ((seqDistance_eq_one _ _).not.2 h1)]

theorem nominateTable_open : nominateTable a a.openSeq = some a.openT :=
  if_pos ((seqDistance_eq_zero _ _).2 rfl)

theorem nominateTable_pending : nominateTable a (a.openSeq + 1) = some a.pendingT := by
  have one : seqDistance (a.openSeq + 1) a.openSeq = 1 := (seqDistance_eq_one _ _).2 rfl
  rw [nominateTable, if_neg (by omega), if_pos one]

theorem nominateBy_unknown (hs : s.accounts.sync ≠ .unsynced) (hi : shipperIndex s.accounts code = none) :
    nominateBy seq code rate s = post .nomRefused 2 s := by
  rw [nominateBy, if_neg hs]
  simp only [hi]

theorem nominateBy_otherPeriod (hs : s.accounts.sync ≠ .unsynced)
    (hi : shipperIndex s.accounts code = some i) (ht : nominateTable s.accounts seq = none) :
    nominateBy seq code rate s = post .nomRefused 3 s := by
  rw [nominateBy, if_neg hs]
  simp only [hi, ht]

theorem nominateBy_placed {t : TableId} (hs : s.accounts.sync ≠ .unsynced)
    (hi : shipperIndex s.accounts code = some i) (ht : nominateTable s.accounts seq = some t) :
    nominateBy seq code rate s = postAll (curtailEvents (s.accounts.acc i) rate)
      (s.withAccounts (s.accounts.setEntry t i
        (placed (s.accounts.acc i) rate (s.accounts.entry t i)))) := by
  rw [nominateBy, if_neg hs]
  simp only [hi, ht]

end Nominate

/-- Settles O50: `nominateBy` by its reasons, else the table of the sequence and the clamp of R173. -/
theorem nominateClampsAndPlaces : Obligations.NominateClampsAndPlaces := by
  intro seq code rate f rest s ha hf hb taken a
  have run : exec .nominate s = .next (nominateBy seq code rate taken) :=
    congrArg Host.Outcome.next (takeNominate_frame ha hf hb)
  rw [run]
  refine ⟨fun hs => congrArg Host.Outcome.next (if_pos hs),
    fun hs h => congrArg Host.Outcome.next (nominateBy_unknown (s := taken) hs (shipperIndex_none h)),
    fun i hs hc hl => ?_⟩
  have index : shipperIndex taken.accounts code = some i := (shipperIndex_of_ne hc).trans hl
  refine ⟨fun h0 h1 => congrArg Host.Outcome.next
    (nominateBy_otherPeriod (s := taken) hs index (nominateTable_other h0 h1)), fun x hx => ?_⟩
  have table : nominateTable taken.accounts seq = some x := by
    obtain ⟨rfl, rfl⟩ | ⟨rfl, rfl⟩ := hx
    · exact nominateTable_open
    · exact nominateTable_pending
  intro m
  rw [nominateBy_placed (s := taken) hs index table, curtailEvents, placed, clampRate_eq]
  rfl

end Sys2Proof.Machine
end

section
/-! Period sync (R177, R178, R179) and what one rotation does (R180, R181): MARK by its distance, the period
and grace timers, the roles, the carry-forward with its events. -/

namespace Sys2Proof.Machine

/-! ### MARK (R178) -/

section Mark

variable {s u : State} {seq : Word16} {elapsed : Nat}

/-- The realigned timer runs for what is left of the period (R177). -/
theorem marked_eq (h : u.cfg = s.cfg) : marked elapsed u = { u with accounts := { u.accounts with
    sync := .marked, grace := .stopped
    period := .running ((s.cfg.periodMinutes * 60 - elapsed) * 1000) } } := by
  rw [marked, h]
  rfl

theorem markBy_unsynced (hs : s.accounts.sync = .unsynced) : markBy seq elapsed s =
    marked elapsed (s.withAccounts { s.accounts with openSeq := seq }) := if_pos hs

theorem markBy_same (hs : s.accounts.sync ≠ .unsynced) (hd : seqDistance seq s.accounts.openSeq = 0) :
    markBy seq elapsed s = marked elapsed s := (if_neg hs).trans (if_pos hd)

theorem markBy_next (hs : s.accounts.sync ≠ .unsynced) (hd : seqDistance seq s.accounts.openSeq = 1) :
    markBy seq elapsed s = marked elapsed (rotate seq s) := by
  simp only [markBy, if_neg hs, hd]
  rfl

theorem markBy_skips (hs : s.accounts.sync ≠ .unsynced) (h2 : 2 ≤ seqDistance seq s.accounts.openSeq)
    (hle : seqDistance seq s.accounts.openSeq ≤ 32767) : markBy seq elapsed s =
      marked elapsed (post .periodSkip (seqDistance seq s.accounts.openSeq - 1) (rotate seq s)) := by
  simp only [markBy, if_neg hs]
  rw [if_neg (by omega), if_neg (by omega), if_pos hle]

theorem markBy_ignored (hs : s.accounts.sync ≠ .unsynced)
    (hd : 32768 ≤ seqDistance seq s.accounts.openSeq) : markBy seq elapsed s = s := by
  simp only [markBy, if_neg hs]
  rw [if_neg (by omega), if_neg (by omega), if_neg (by omega)]

theorem rotate_cfg (seq : Word16) (s : State) : (rotate seq s).cfg = s.cfg :=
  (rotate_keeps seq s).cfg (by decide)

end Mark

/-- Settles O51: `markBy` by the sync state and the distance; the image is not a rotation's. -/
theorem markAdoptsRealignsOrRotates : Obligations.MarkAdoptsRealignsOrRotates := by
  intro seq elapsed f rest s ha hf hb taken distance realign
  have run : exec .mark s = .next (markBy seq elapsed taken) :=
    congrArg Host.Outcome.next (takeMark_frame ha hf hb)
  have realigns {u : State} (hu : u.cfg = s.cfg) : marked elapsed u = realign u := marked_eq hu
  rw [run]
  refine ⟨fun hs => congrArg Host.Outcome.next ?adopts, fun hs hd => congrArg Host.Outcome.next ?same,
    fun hs hd => congrArg Host.Outcome.next ?next, fun hs h2 hle => congrArg Host.Outcome.next ?skips,
    fun hs hd => congrArg Host.Outcome.next (markBy_ignored (s := taken) hs hd)⟩
  case adopts => exact (markBy_unsynced (s := taken) hs).trans (realigns rfl)
  case same => exact (markBy_same (s := taken) hs hd).trans (realigns rfl)
  case next => exact (markBy_next (s := taken) hs hd).trans (realigns (rotate_cfg seq taken))
  case skips =>
    exact (markBy_skips (s := taken) hs h2 hle).trans
      (realigns ((post_cfg _ _ _).trans (rotate_cfg seq taken)))

/-! ### The period and the grace timer (R179) -/

section Timers

variable {s : State}

theorem periodExpiry_running (ha : s.active = true) (ht : s.accounts.period ≠ .stopped) :
    periodExpiry s =
      s.withAccounts { s.accounts with period := .stopped, grace := .ofSeconds s.cfg.grace } := by
  rw [periodExpiry, whenActive_on s _ ha]
  exact if_pos (isRunning_of_ne ht)

theorem graceExpiry_running (ha : s.active = true) (ht : s.accounts.grace ≠ .stopped) :
    graceExpiry s = ownClockRotation s := by
  rw [graceExpiry, whenActive_on s _ ha]
  exact if_pos (isRunning_of_ne ht)

end Timers

/-! ### Carry-forward (R181) -/

section CarryForward

variable {r : AccRec} {o n : Entry}

theorem carries_iff : carries r o n = true ↔
    nominated o ≠ 0 ∧ n.nomination = none ∧ r.present = true ∧ r.code ≠ 0 := by
  simp only [carries, isShipper, Bool.and_eq_true, Bool.not_eq_true', decide_eq_true_eq,
    Option.isSome_eq_false_iff, Option.isNone_iff_eq_none]
  tauto

/-- An absent nomination is not carried forward. -/
theorem carryEntry_absent (h : o.nomination = none) : carryEntry r o n = n := by
  refine carryEntry_of_not (eq_false_of_ne_true fun k => ?_)
  obtain ⟨hne, -⟩ := carries_iff.1 k
  exact hne (by rw [nominated, h]; rfl)

/-- Nothing is carried into an entry that has its own nomination. -/
theorem carryEntry_taken {m : Int} (h : n.nomination = some m) : carryEntry r o n = n := by
  refine carryEntry_of_not (eq_false_of_ne_true fun k => ?_)
  obtain ⟨-, hnone, -⟩ := carries_iff.1 k
  rw [h] at hnone
  cases hnone

theorem carryEntry_open {x : Int} (ho : o.nomination = some x) (hn : n.nomination = none) :
    carryEntry r o n = if x ≠ 0 ∧ r.present = true ∧ r.code ≠ 0 then
      { n with
        nomination := some (max (-(r.wdRight : Int)) (min r.injRight x))
        curtailed := o.curtailed || decide (max (-(r.wdRight : Int)) (min r.injRight x) ≠ x) }
    else n := by
  have hx : nominated o = x := by rw [nominated, ho]; rfl
  have hcarries : carries r o n = true ↔ x ≠ 0 ∧ r.present = true ∧ r.code ≠ 0 := by
    rw [carries_iff, hx]
    simp only [hn, true_and]
  rw [carryEntry, if_congr hcarries rfl rfl, hx, clampRate_eq]

/-- NOM_CURTAILED for a nomination that the clamp cuts back (R173, R181). -/
theorem carryEvents_eq : carryEvents r o n =
    if nominated o ≠ 0 ∧ n.nomination = none ∧ r.present = true ∧ r.code ≠ 0 ∧
      max (-(r.wdRight : Int)) (min r.injRight (nominated o)) ≠ nominated o
    then [(.nomCurtailed, r.code)] else [] := by
  unfold carryEvents curtailEvents
  rw [clampRate_eq]
  by_cases hc : carries r o n = true
  · obtain ⟨h0, hnone, hpresent, hcode⟩ := carries_iff.1 hc
    rw [if_pos hc]
    simp only [h0, hnone, hpresent, hcode, true_and, ne_eq, not_false_eq_true, ite_not]
  · rw [if_neg hc, if_neg]
    rintro ⟨h0, hnone, hpresent, hcode, -⟩
    exact hc (carries_iff.2 ⟨h0, hnone, hpresent, hcode⟩)

end CarryForward

/-- At most one event for each index, in index order. -/
theorem flatMap_ite_singleton {α β : Type} (p : α → Prop) [DecidablePred p] (g : α → β) (l : List α) :
    l.flatMap (fun i => if p i then [g i] else []) = (l.filter (fun i => decide (p i))).map g := by
  induction l with
  | nil => rfl
  | cons x l ih =>
    rw [List.flatMap_cons, ih]
    by_cases hx : p x
    · rw [if_pos hx, List.filter_cons_of_pos (by simpa using hx)]
      rfl
    · rw [if_neg hx, List.filter_cons_of_neg (by simpa using hx)]
      rfl

/-! ### A rotation (R180) -/

section Rotate

variable {a : Accounts} {s : State} {seq : Word16}

@[simp] theorem rotate_accounts (seq : Word16) (s : State) :
    (rotate seq s).accounts = rotated seq s.accounts := postAll_accounts _ _

theorem rotated_openEntry (ht : TablesSound a) (i : Nat) : (rotated seq a).entry a.pendingT i =
    carryEntry (a.acc i) (a.entry a.openT i) (a.entry a.pendingT i) := by
  rw [Accounts.entry, rotated_table_open ht.pendingClosed ht.closedOpen,
    carryTable_getD _ (by rw [ht.length, ht.length])]
  rfl

theorem rotate_events (seq : Word16) (s : State) :
    (rotate seq s).events = (postAll (rotationEvents seq s.accounts) s).events :=
  postAll_events_congr _ _ _ rfl rfl

theorem rotationEvents_eq (ht : TablesSound a) : rotationEvents seq a =
    (if a.reporting then [(.closeLost, unsentEntries a)] else []) ++
      carryTableEvents a.recs (a.table a.openT) (a.table a.pendingT) ++ [(.periodRotate, seq.toNat)] := by
  simp only [rotationEvents, cutShort_recs, cutShort_openT, cutShort_pendingT,
    cutShort_table_ne ht.closedOpen.symm, cutShort_table_ne ht.pendingClosed]

/-- Where the report ends is known by its cursor (R180, R182). -/
theorem closeLost_eq (h : ReportSound a) :
    (if a.reporting then [(EventKind.closeLost, unsentEntries a)] else []) =
      a.cursor.elim [] fun i => [(.closeLost, (qualifyingFrom (a.table a.closedT) i).length)] := by
  cases hc : a.cursor with
  | none =>
    have idle : ¬a.reporting = true := fun k => h.cursor.1 k hc
    rw [if_neg idle]
    rfl
  | some i =>
    have reports : a.reporting = true := h.cursor.2 (by simp [hc])
    rw [if_pos reports, unsentEntries]
    simp only [hc]
    rfl

end Rotate

/-- Settles O52: the two timers by their own lemmas; a rotation by the tables of `rotated`, its entries by
`carryEntry` and its events index by index. -/
theorem graceExpiryRotatesOnTheOwnClock : Obligations.GraceExpiryRotatesOnTheOwnClock := by
  refine ⟨fun s ha ht => congrArg Host.Outcome.next (periodExpiry_running ha ht),
    fun s ha ht => congrArg Host.Outcome.next (graceExpiry_running ha ht), ?rotation⟩
  case rotation =>
    intro seq s a t hlen h0 h1 h2 hop hpc hco hcursor hclean
    have tables : TablesSound a :=
      ⟨fun x => by cases x <;> assumption, hop, hpc, hco⟩
    have report : ReportSound a := ⟨hcursor, hclean⟩
    have accounts : t.accounts = rotated seq a := rotate_accounts seq s
    have openRole : (rotated seq a).openT = a.pendingT := by rw [rotated_eq]
    have closedRole : (rotated seq a).closedT = a.openT := by rw [rotated_eq]
    have pendingRole : (rotated seq a).pendingT = a.closedT := by rw [rotated_eq]
    rw [accounts, openRole, closedRole, pendingRole]
    refine ⟨rfl, rfl, rfl, rotated_table_closed hop hco, rotated_table_pending hpc hclean,
      fun i => ?entry, rotated_eq seq a, ?events, rotate_keeps seq s⟩
    case entry =>
      rw [rotated_openEntry tables]
      cases ho : (a.entry a.openT i).nomination with
      | none =>
        simp only [ho]
        exact carryEntry_absent ho
      | some x =>
        cases hn : (a.entry a.pendingT i).nomination with
        | none =>
          simp only [ho, hn]
          exact carryEntry_open ho hn
        | some m =>
          simp only [ho, hn]
          exact carryEntry_taken hn
    case events =>
      intro cutBack
      have carried : carryTableEvents a.recs (a.table a.openT) (a.table a.pendingT) =
          ((List.range 49).filter cutBack).map (fun i => (.nomCurtailed, (a.acc i).code)) := by
        rw [carryTableEvents_eq (by rw [tables.length, hlen]) (by rw [tables.length, hlen]), hlen]
        simp only [carryEvents_eq]
        exact flatMap_ite_singleton _ _ _
      rw [rotate_events, rotationEvents_eq tables, closeLost_eq report, carried]
      cases hc : a.cursor <;> rfl

end Sys2Proof.Machine
end

section
/-! Increments shared by nomination (R188, R189, R190): each shipper's part, the remainder to the holding
account, and that the parts add up to the increment. -/

namespace Sys2Proof.Machine

/-! ### Shares and the remainder -/

/-- The shippers' shares of an increment, after the remainder that is the holding account's. -/
def withRemainder (v : Int) (share : Entry → Int) : List Entry → List Int
  | [] => []
  | _ :: shippers => (v - (shippers.map share).sum) :: shippers.map share

theorem parts_withRemainder (v t : Int) (es : List Entry) :
    parts v t es = withRemainder v (part v t) es := by
  cases es <;> rfl

theorem charges_withRemainder (f t : Int) (es : List Entry) :
    charges f t es = withRemainder f (charge f t) es := by
  cases es <;> rfl

/-- A list read index by index. -/
theorem map_eq_map_range {α β : Type} (h : α → β) (d : α) (l : List α) :
    l.map h = (List.range l.length).map fun i => h (l.getD i d) := by
  refine List.ext_getElem (by simp) fun i hi _ => ?_
  have hl : i < l.length := by simpa using hi
  simp [List.getD_eq_getElem?_getD, hl]

section Remainder

variable {v : Int} {share : Entry → Int} {es : List Entry} {n i : Nat}

/-- Not one litre is lost in the sharing (R188, R190). -/
theorem withRemainder_sum (h : es.length = n + 1) : (withRemainder v share es).sum = v := by
  obtain ⟨e, shippers, rfl⟩ := List.exists_cons_of_length_eq_add_one h
  rw [withRemainder, List.sum_cons, Int.sub_add_cancel]

theorem withRemainder_holding (h : es.length = n + 1) : (withRemainder v share es).getD 0 0 =
    v - ((List.range n).map fun i => share (es.getD (i + 1) Entry.blank)).sum := by
  obtain ⟨e, shippers, rfl⟩ := List.exists_cons_of_length_eq_add_one h
  have hn : shippers.length = n := Nat.succ.inj h
  rw [withRemainder, map_eq_map_range share Entry.blank shippers, hn]
  rfl

theorem withRemainder_shipper (hi : i + 1 < es.length) :
    (withRemainder v share es).getD (i + 1) 0 = share (es.getD (i + 1) Entry.blank) := by
  cases es with
  | nil => cases hi
  | cons e shippers =>
    have hs : i < shippers.length := Nat.lt_of_succ_lt_succ hi
    simp [withRemainder, List.getD_eq_getElem?_getD, hs]

/-- The part of each of the 49 accounts. -/
theorem withRemainder_getD (h : es.length = 49) (hi : i < 49) : (withRemainder v share es).getD i 0 =
    if i = 0 then
      v - ((List.range 48).map fun i => share (es.getD (i + 1) Entry.blank)).sum
    else share (es.getD i Entry.blank) := by
  cases i with
  | zero => exact withRemainder_holding h
  | succ i => exact withRemainder_shipper (h.symm ▸ hi)

end Remainder

/-! ### The two takes (R187) -/

section Takes

variable {s : State}

theorem takeMetered_oldest {v : Int} {rest : List Int} (ha : s.active = true)
    (hm : s.accounts.metered = v :: rest) : takeMetered s =
      s.withAccounts { allocated v s.dryer.offSpec s.accounts with metered := rest } := by
  rw [takeMetered, whenActive_on s _ ha, allocated_withMetered]
  simp only [hm]

theorem takeFuel_oldest {f : Nat} {rest : List Nat} (ha : s.active = true)
    (hf : s.accounts.fuel = f :: rest) :
    takeFuel s = s.withAccounts { charged f s.accounts with fuel := rest } := by
  rw [takeFuel, whenActive_on s _ ha, charged_withFuel]
  simp only [hf]

end Takes

/-- ΣN⁺ index by index (R190). -/
theorem positiveSum_eq {a : Accounts} (h : a.openTable.length = 49) : positiveSum a =
    ((List.range 49).map fun i => max 0 ((a.entry a.openT i).nomination.getD 0)).sum := by
  rw [positiveSum, map_eq_map_range injecting Entry.blank, h]
  rfl

/-- Settles O53: both takes are a `sharedOut` of the parts of `withRemainder_getD`. -/
theorem incrementsAreSharedByNomination : Obligations.IncrementsAreSharedByNomination := by
  refine ⟨fun v rest s ha hm hr ht => ?metered, fun f rest s ha hf hr ht => ?fuel⟩
  case metered =>
    intro a total share others part wet
    have hwet : (s.dryer.offSpec && decide (v < 0)) = wet := by
      simp only [wet, Bool.decide_and, Bool.decide_eq_true]
    have hparts {i : Nat} (hi : i < 49) : (parts v total a.openTable).getD i 0 = part i := by
      rw [parts_withRemainder, withRemainder_getD ht hi]
      rfl
    have hlen {i : Nat} (hi : i < 49) : i < (parts v total a.openTable).length := by
      rw [parts_length, ht]
      exact hi
    have run := takeMetered_oldest ha hm
    rw [allocated_sharedOut, hwet] at run
    refine ⟨_, congrArg Host.Outcome.next run, fun i hi => ?_, fun x hx => ?_, ?_,
      run ▸ takeMetered_keeps s⟩
    · have hacc := sharedOut_acc (f := creditRec wet) (g := creditEntry wet) (hr.symm ▸ hi) (hlen hi)
      have hentry := sharedOut_entry (f := creditRec wet) (g := creditEntry wet) (ht.symm ▸ hi) (hlen hi)
      rw [hparts hi] at hacc hentry
      exact ⟨hacc, hentry⟩
    · exact sharedOut_table_ne (f := creditRec wet) hx
    · exact congrArg (fun b : Accounts => { b with metered := rest }) (sharedOut_eq _ _ _ _)
  case fuel =>
    intro a positive total share others part
    have htotal : positiveSum a = total := positiveSum_eq ht
    have hparts {i : Nat} (hi : i < 49) : (charges f (positiveSum a) a.openTable).getD i 0 = part i := by
      rw [charges_withRemainder, withRemainder_getD ht hi, htotal]
      rfl
    have hlen {i : Nat} (hi : i < 49) : i < (charges f (positiveSum a) a.openTable).length := by
      rw [charges_length, ht]
      exact hi
    have run := takeFuel_oldest ha hf
    rw [charged_sharedOut] at run
    refine ⟨_, congrArg Host.Outcome.next run, fun i hi => ?_, fun x hx => ?_, ?_,
      run ▸ takeFuel_keeps s⟩
    · have hacc := sharedOut_acc (f := chargeRec) (g := chargeEntry) (hr.symm ▸ hi) (hlen hi)
      have hentry := sharedOut_entry (f := chargeRec) (g := chargeEntry) (ht.symm ▸ hi) (hlen hi)
      rw [hparts hi] at hacc hentry
      exact ⟨hacc, hentry⟩
    · exact sharedOut_table_ne (f := chargeRec) hx
    · exact congrArg (fun b : Accounts => { b with fuel := rest }) (sharedOut_eq _ _ _ _)

/-! ### Sums over all records -/

/-- Within 64 bits an accumulator takes the exact sum (R1). -/
theorem accAdd_exact {x y : Int} (hl : -(2 ^ 63) ≤ x + y) (hu : x + y < 2 ^ 63) :
    accAdd x y = x + y := by
  unfold accAdd acc64
  split
  · omega
  · exact if_pos (by omega)

/-- What each record gains, the sum over the records gains. -/
theorem sum_zipWith_gain (total : AccRec → Int) (f : Int → AccRec → AccRec) {ps : List Int}
    {recs : List AccRec} (hlen : ps.length = recs.length)
    (h : ∀ i < recs.length, total (f (ps.getD i 0) (recs.getD i AccRec.blank)) =
      total (recs.getD i AccRec.blank) + ps.getD i 0) :
    ((List.zipWith f ps recs).map total).sum = (recs.map total).sum + ps.sum := by
  induction recs generalizing ps with
  | nil =>
    rw [List.eq_nil_of_length_eq_zero hlen]
    rfl
  | cons r recs ih =>
    obtain ⟨p, ps, rfl⟩ := List.exists_cons_of_length_eq_add_one hlen
    have first : total (f p r) = total r + p := h 0 (Nat.succ_pos _)
    have others := ih (Nat.succ.inj hlen) fun i hi => h (i + 1) (Nat.succ_lt_succ hi)
    simp only [List.zipWith_cons_cons, List.map_cons, List.sum_cons, first, others]
    omega

/-- Settles O54: every record gains its part (`accAdd_exact`), and the parts add up to the increment
(`withRemainder_sum`). -/
theorem noLitreGoesAstray : Obligations.NoLitreGoesAstray := by
  refine ⟨fun v rest s t ha hm hr ht hx hbound => ?metered,
    fun f rest s t ha hf hr ht hx hbound => ?fuel⟩
  case metered =>
    cases hx
    have hsum : (parts v (siteTarget s.accounts) s.accounts.openTable).sum = v := by
      rw [parts_withRemainder]
      exact withRemainder_sum ht
    rw [takeMetered_oldest ha hm]
    refine (sum_zipWith_gain (fun r => r.net) _ ?_ fun i hi => ?_).trans
      (congrArg (_ + ·) hsum)
    · exact (parts_length _ _ _).trans (ht.trans hr.symm)
    · obtain ⟨hl, hu⟩ := hbound i (hr ▸ hi)
      exact accAdd_exact hl hu
  case fuel =>
    cases hx
    have hsum : (charges f (positiveSum s.accounts) s.accounts.openTable).sum = f := by
      rw [charges_withRemainder]
      exact withRemainder_sum ht
    rw [takeFuel_oldest ha hf]
    refine (sum_zipWith_gain (fun r => r.fuel) _ ?_ fun i hi => ?_).trans
      (congrArg (_ + ·) hsum)
    · exact (charges_length _ _ _).trans (ht.trans hr.symm)
    · obtain ⟨hl, hu⟩ := hbound i (hr ▸ hi)
      exact accAdd_exact hl hu

end Sys2Proof.Machine
end

section
/-! Posting an event as it changes the whole state (R194, R196); the end of reset with its read request, the
header's judgement (R203), the start clock (R193) and the entry to RUNNING (R208). -/

namespace Sys2Proof.Machine

/-! ### Posting (R194, R196) -/

/-- R194: where there is a place, the record at the tail is all that changes. -/
theorem post_appends {k : EventKind} {d : Nat} {s : State} (ha : s.active = true)
    (hr : s.events.queue.length < Config.eventPlaces) :
    post k d s = s.withEvents { s.events with
      queue := s.events.queue ++ [{ kind := k, detail := d, seconds := s.events.clock }] } :=
  (if_pos ha).trans (if_pos hr)

/-- R194: where there is none, EVENTS_LOST is all that changes. -/
theorem post_drops {k : EventKind} {d : Nat} {s : State} (ha : s.active = true)
    (hf : Config.eventPlaces ≤ s.events.queue.length) :
    post k d s = s.withEvents { s.events with lost := true } :=
  (if_pos ha).trans (if_neg hf.not_gt)

/-- Settles O21: `post_appends` and `post_drops` by the places left, `post_inactive` where the station
does not work, and the two equations of `postAll`. -/
theorem postAppendsOrDropsWithEventsLost : Obligations.PostAppendsOrDropsWithEventsLost := by
  refine ⟨?room, ?full, ?inactive, ?several, ?noEvent⟩
  case room => exact fun _ _ _ ha hr => post_appends ha hr
  case full => exact fun _ _ _ ha hf => post_drops ha hf
  case inactive => exact post_inactive
  case several => exact fun k d => postAll_cons (k, d)
  case noEvent => exact postAll_nil

/-! ### The end of reset and the read (R202, R203) -/

theorem memoryReadRequest_eq : memoryReadRequest = [0x03#8, 0#8, 0#8] := by decide

theorem endReset_held {s : State} (h : s.startup.held = true) :
    endReset s = { s with
      startup := { s.startup with
        held := false, load := .header, csel := true, memoryOut := memoryReadRequest }
      events := { s.events with clock := 0 } } := if_pos h

theorem imageReadMicros_eq (len : Nat) : imageReadMicros len = (3 + len + 1) * 8 := by
  rw [imageReadMicros, memoryReadRequest_eq]
  rfl

/-- What the header must give for the read to go on (R203). -/
theorem header_passes_iff (b0 b1 b2 : Byte) :
    (within 64 4096 (imageLength b0 b1) = true ∧ b2 = 1#8) ↔
      64 ≤ b0.toNat * 256 + b1.toNat ∧ b0.toNat * 256 + b1.toNat ≤ 4096 ∧ b2 = 1#8 := by
  rw [within_iff, imageLength_eq, and_assoc]

/-- A header taken while it is awaited: the read goes on, or it ends in CONFIG_FAULT (R203). -/
theorem takeHeader_awaited {b0 b1 b2 : Byte} {s : State} (hst : s.startup.station = .loading)
    (hl : s.startup.load = .header) :
    takeHeader b0 b1 b2 s =
      if 64 ≤ b0.toNat * 256 + b1.toNat ∧ b0.toNat * 256 + b1.toNat ≤ 4096 ∧ b2 = 1#8 then
        s.withStartup { s.startup with load := .body b0 b1 b2 }
      else enterConfigFault s :=
  (if_pos ⟨hst, hl⟩).trans (if_congr (header_passes_iff b0 b1 b2) rfl rfl)

/-! ### The start clock and the entry to RUNNING (R193, R208) -/

theorem clockTick_running {s : State} (h : s.startup.held = false) :
    clockTick s =
      s.withEvents { s.events with clock := min Config.clockMax (s.events.clock + 1) } :=
  if_neg (by simp [h])

theorem listeningExpiry_enters {s : State} (hst : s.startup.station = .listening)
    (ht : s.startup.listening ≠ .stopped) :
    listeningExpiry s =
      (s.withStartup { s.startup with station := .running, listening := .stopped }).withInbox
        { s.inbox with runningToDirection := true, runningToDryer := true } :=
  if_pos ⟨hst, isRunning_of_ne ht⟩

/-- Settles O7: one equation for each command, and `takeHeader_awaited` by its condition. -/
theorem resetEndHeaderClockAndEntryToRunning : Obligations.ResetEndHeaderClockAndEntryToRunning := by
  refine ⟨?resetEnd, imageReadMicros_eq, ?tick, ?entry, ?header⟩
  case resetEnd =>
    intro s h
    rw [← memoryReadRequest_eq]
    exact congrArg Host.Outcome.next (endReset_held h)
  case tick => exact fun s h => congrArg Host.Outcome.next (clockTick_running h)
  case entry => exact fun s hst ht => congrArg Host.Outcome.next (listeningExpiry_enters hst ht)
  case header =>
    intro b0 b1 b2 s hst hl
    have taken := takeHeader_awaited (b0 := b0) (b1 := b1) (b2 := b2) hst hl
    exact ⟨fun hok => congrArg Host.Outcome.next (taken.trans (if_pos hok)),
      fun hbad => congrArg Host.Outcome.next (taken.trans (if_neg hbad))⟩

end Sys2Proof.Machine
end

section
/-! # One step of the part

The machine's step takes one command from the queue (log 3); these two equations say what it answers in
each case of the queue. -/

namespace Sys2Proof.Machine

theorem step_of_pending_cons {s : State} {c : Instr} {rest : List Instr}
    (h : s.pending = c :: rest) : step s = exec c (s.withPending rest) := by
  rw [step, h]

theorem step_of_pending_nil {s : State} (h : s.pending = []) : step s = .next s := by
  rw [step, h]

/-- Settles O1: the two cases of the queue, each by its equation for `step`. -/
theorem stepRunsTheFrontCommand : Obligations.StepRunsTheFrontCommand :=
  ⟨fun _ _ _ h => step_of_pending_cons h, fun _ h => step_of_pending_nil h⟩

end Sys2Proof.Machine
end
